-- ==== Sys2Proof/Word.lean ====
section
/-! DEFINITION. The words of the block: the byte, the 32-bit seed and the 40-bit event word (spec/00_scope.md R7,
spec/30_encoding.md R70 to R72). -/

namespace Sys2Proof

/-- Eight bits: an output byte, a PRNG draw, a ROM entry (R7, R50). -/
abbrev Byte := BitVec 8

/-- The seed of INIT, SEED_W = 32 bits (R5, R72). -/
abbrev Seed := BitVec 32

/-- One event word: 40 bits, the one length there is (R70). -/
abbrev EventWord := BitVec 40

end Sys2Proof
end

