-- ==== Sys2Proof/Syntax.lean ====
section
/-! DEFINITION. The five events of the block (spec/00_scope.md R12), one constructor for each row of
spec/opcode_table.json. The block has no instruction set (R1); its events stand in the place of instructions. -/

namespace Sys2Proof

/-- The events, with their operands as spec/30_encoding.md R72 and R74 give them. -/
inductive Instr where
  /-- INIT(seed), the host's `init` call (42_host_interface.md R150). -/
  | init (seed : Seed)
  /-- RUN, the host's `run_loop` call (R155). -/
  | run
  /-- TICK, one firing of the Tick Source and its handler (40_tick_handler.md R100). -/
  | tick
  /-- CONSUME, one iteration of the engine's loop (41_animation_engine.md R110). -/
  | consume
  /-- SINK_ACK(ok), the sink's answer to the outstanding write: true when it succeeded (R140). -/
  | sinkAck (ok : Bool)
deriving DecidableEq, Repr

end Sys2Proof
end

