-- ==== Sys2Proof/WellFormed.lean ====
section
/-! DEFINITION. Well-formed events. The operands' widths stand in the types of `Instr`, so the one range there is to
check is that of a seed written as a number (spec/30_encoding.md R79). -/

namespace Sys2Proof

/-- A seed written as a number fits in SEED_W = 32 bits; one that does not is refused (R79). -/
def seedFits (n : Nat) : Bool := decide (n < 2 ^ 32)

/-- Every operand of an event is in its range. RUN, TICK and CONSUME have none, and `ok` is one bit (R74). -/
def Instr.wf : Instr → Bool
  | .init seed => seedFits seed.toNat
  | .run => true
  | .tick => true
  | .consume => true
  | .sinkAck _ => true

end Sys2Proof
end

