-- ==== Sys2Proof/Decode.lean ====
section
/-! DEFINITION. The event word's fields, the opcode map, the decoder, which is total on 40 bits, and the encoder
(spec/30_encoding.md R70 to R76). -/

namespace Sys2Proof

/-- Why a word spells no event: the three cases of R75. -/
inductive Reserved where
  /-- OP is 0x0 or in 0x6 to 0xF. -/
  | opcode
  /-- RSV is not 0. -/
  | rsvField
  /-- A must-be-zero PAYLOAD bit of the format is not 0. -/
  | payload
deriving DecidableEq, Repr

/-- What the decoder answers. -/
inductive Decoded where
  /-- The word spells this event. -/
  | event (i : Instr)
  /-- The word is reserved (R75). -/
  | reserved (why : Reserved)
deriving DecidableEq, Repr

/-- One row of the opcode map: a word matches it when `word &&& mask = pattern` (R73). -/
structure Row where
  mnemonic : String
  mask : EventWord
  pattern : EventWord
deriving DecidableEq, Repr

/-- OP, bits 3:0 (R71). -/
def fieldOp (w : EventWord) : BitVec 4 := w.extractLsb' 0 4

/-- RSV, bits 7:4, which must be 0 (R71). -/
def fieldRsv (w : EventWord) : BitVec 4 := w.extractLsb' 4 4

/-- PAYLOAD, bits 39:8 (R71). -/
def fieldPayload (w : EventWord) : BitVec 32 := w.extractLsb' 8 32

/-- SINK_ACK's `ok`, word bit 8 (R72, R74). -/
def fieldOk (w : EventWord) : Bool := w.getLsbD 8

/-- The must-be-zero bits of format EV-A, PAYLOAD[31:1], word bits 39:9 (R72). -/
def fieldAckMbz (w : EventWord) : BitVec 31 := w.extractLsb' 9 31

/-- An event of format EV-N: its PAYLOAD must be 0 (R72). -/
def plainEvent (w : EventWord) (i : Instr) : Decoded :=
  if fieldPayload w = 0#32 then .event i else .reserved .payload

/-- The decoder, in the order of the pseudocode of R76: RSV first, then OP. -/
def decode (w : EventWord) : Decoded :=
  if fieldRsv w ≠ 0#4 then .reserved .rsvField
  else if fieldOp w = 0x1#4 then .event (.init (fieldPayload w))
  else if fieldOp w = 0x2#4 then plainEvent w .run
  else if fieldOp w = 0x3#4 then plainEvent w .tick
  else if fieldOp w = 0x4#4 then plainEvent w .consume
  else if fieldOp w = 0x5#4 then
    (if fieldAckMbz w = 0#31 then .event (.sinkAck (fieldOk w)) else .reserved .payload)
  else .reserved .opcode

/-- The word of an event (R72, R73, R79): PAYLOAD, RSV = 0, OP. -/
def encode : Instr → EventWord
  | .init seed => seed ++ 0x01#8
  | .run => 0x0000000002#40
  | .tick => 0x0000000003#40
  | .consume => 0x0000000004#40
  | .sinkAck ok => 0#31 ++ BitVec.ofBool ok ++ 0x05#8

/-- The row of R73 that an event's words match. -/
def Instr.row : Instr → Row
  | .init _ => ⟨"INIT", 0x00000000FF#40, 0x0000000001#40⟩
  | .run => ⟨"RUN", 0xFFFFFFFFFF#40, 0x0000000002#40⟩
  | .tick => ⟨"TICK", 0xFFFFFFFFFF#40, 0x0000000003#40⟩
  | .consume => ⟨"CONSUME", 0xFFFFFFFFFF#40, 0x0000000004#40⟩
  | .sinkAck _ => ⟨"SINK_ACK", 0xFFFFFFFEFF#40, 0x0000000005#40⟩

/-- The opcode map of R73, row by row. -/
def opcodeTable : List Row :=
  [(Instr.init 0).row, Instr.run.row, Instr.tick.row, Instr.consume.row, (Instr.sinkAck false).row]

/-- `(word & mask) = match` (R73). -/
def Row.hits (r : Row) (w : EventWord) : Bool := w &&& r.mask == r.pattern

/-- The event word that holds the low `nbits` bits of the number `w`, the bits above them 0. -/
def tableWord (nbits w : Nat) : EventWord := BitVec.ofNat 40 (w % 2 ^ nbits)

/-- The event the decoder reads from a word numbered as spec/opcode_table.json numbers it. A number that has a bit
above bit 39 is no event word (R70; log entry 21). -/
def decodeTableWord (nbits w : Nat) : Option Instr :=
  if w % 2 ^ nbits < 2 ^ 40 then
    match decode (tableWord nbits w) with
    | .event i => some i
    | .reserved _ => none
  else none

end Sys2Proof
end

