-- ==== Sys2Proof/Config.lean ====
section
/-! DEFINITION. The configuration of the block: the parameters of spec/00_scope.md R5, as plain data, and the open
values that the spec leaves free: the waveform table, the PRNG and the tick period. No event changes a configuration
(spec/10_state.md R35). -/

namespace Sys2Proof

/-- The contents of the waveform ROM that a configuration fixes: (index, entry) pairs, indices strictly rising, none
equal to what an unlisted index reads as (20_memory.md R50; log entry 7). -/
abbrev Memory := List Host.Cell

/-- A state of the random generator. The spec takes the type as a parameter; the model numbers the generator's states
(R5, R29; DESIGN CHOICE, log entry 8, safe). -/
abbrev PrngState := Nat

/-- Which random generator a configuration uses (R5). -/
inductive PrngParam where
  /-- The hardware's own, of which nothing is known but that it is deterministic: the two opaque functions below. -/
  | hardware
  /-- The scripted fixture of 95_test_vectors.md section 0: every seed starts at draw 0 and draw j answers entry j.
  Not the hardware's generator. -/
  | scripted (draws : List Byte)
deriving DecidableEq, Repr

/-- The parameters of R5. -/
structure Config where
  /-- R = PWM_RESOLUTION, ticks in a PWM period. -/
  pwmResolution : Nat
  /-- L = WAVEFORM_LENGTH, entries of the waveform ROM. -/
  waveformLength : Nat
  /-- U = WAVEFORM_UPDATE_COUNT, PWM periods to a waveform-update event. -/
  waveformUpdateCount : Nat
  /-- P = PRNG_UPDATE_COUNT, waveform-update events to a draw. -/
  prngUpdateCount : Nat
  /-- N = PWM_CHANNELS. -/
  channels : Nat
  /-- M = ACTIVE_MASK. -/
  activeMask : Nat
  /-- The entries of WAVEFORM_VALUES that this configuration fixes; the others are open. -/
  wave : Memory
  /-- The PRNG. -/
  prng : PrngParam
  /-- TICK_PERIOD, read by no rule (R191). -/
  tickPeriod : Nat
deriving DecidableEq, Repr

/-- FREE VALUE: the hardware's waveform table before the limits of 20_memory.md R51 (log entry 7). -/
opaque Config.openWave : Nat → Nat

/-- FREE VALUE: the hardware's `prng_seed` (R5; log entry 8). -/
opaque Config.openPrngSeed : Seed → PrngState

/-- FREE VALUE: the hardware's `prng_next`, the byte drawn and the state after the draw (R5; log entry 8). -/
opaque Config.openPrngNext : PrngState → Byte × PrngState

/-- FREE VALUE: the tick period (R5, R191; log entry 16). -/
opaque Config.openTickPeriod : Nat

/-- This hardware: the defaults of R5, the ROM, the PRNG and the tick period open. -/
def Config.hardware : Config where
  pwmResolution := 128
  waveformLength := 64
  waveformUpdateCount := 2
  prngUpdateCount := 64
  channels := 8
  activeMask := 0x1F
  wave := []
  prng := .hardware
  tickPeriod := Config.openTickPeriod

end Sys2Proof
end

