-- ==== Sys2Proof/Machine/State.lean ====
section
/-! DEFINITION. The state of the block (spec/10_state.md R34), as plain data, its value at reset (R200), and the reasons
a step can stop. -/

namespace Sys2Proof.Machine

/-- ENG, the engine phase (R30). -/
inductive Phase where
  /-- 0: after reset and before INIT. -/
  | uninit
  /-- 1: initialised, `run_loop` not running. -/
  | stopped
  /-- 2: `run_loop` running and blocked until READY = 1. -/
  | wait
  /-- 3: `run_loop` running, a sink write issued and unanswered. -/
  | sink
deriving DecidableEq, Repr

/-- One entry of the per-channel file (R38). -/
structure Channel where
  /-- ACTIVE[i] (R26). -/
  active : Bool
  /-- WIDX[i], the waveform index (R27). -/
  widx : Nat
deriving DecidableEq, Repr

/-- A channel that is not animating, at index 0 (R128 IDLE), and what an absent channel reads as (R26, R27). -/
def Channel.idle : Channel := ⟨false, 0⟩

/-- What the outside sees of the block, event by event (00_scope.md R13; log entry 13). -/
inductive Obs where
  /-- INIT answered success (42_host_interface.md R151). -/
  | initSuccess
  /-- CONSUME passed this byte to SinkWrite (R13 a, R126). -/
  | sinkWrite (byte : Byte)
  /-- The sink's answer to the write before it, and ERR_SINK after it (R13 a and b, R140). A SINK_ACK that faults is none:
  R13 b leaves open whether it counts (DESIGN CHOICE, safe, log entry 13). -/
  | sinkAnswer (ok errSink : Bool)
deriving DecidableEq, Repr

/-- The five fault codes (60_exceptions.md R170). -/
inductive FaultCode where
  /-- 1, RUN_BEFORE_INIT. -/
  | runBeforeInit
  /-- 2, INIT_TWICE. -/
  | initTwice
  /-- 3, RUN_WHILE_RUNNING. -/
  | runWhileRunning
  /-- 4, SPURIOUS_ACK. -/
  | spuriousAck
  /-- 5, RESERVED_EVENT. -/
  | reservedEvent
deriving DecidableEq, Repr

/-- The state. Counts are naturals whose ranges are the invariants (a) to (d) of R36: the spec gives ranges and derives
the widths from them (R7; log entry 6). -/
structure State where
  /-- DUTY, the Duty-Cycle Counter, 7 bits (R22). -/
  duty : Nat
  /-- READY, the ready flag (R23). -/
  ready : Bool
  /-- WUC, the Waveform-Update Counter, 1 bit (R24). -/
  wuc : Nat
  /-- PAC, the PRNG-Activation Counter, 6 bits (R25). -/
  pac : Nat
  /-- ACTIVE[i] and WIDX[i], i = 0..7 (R26, R27, R38); the entries N..7 of absent channels stay idle. -/
  chans : Vector Channel 8
  /-- OUT, the Output Byte (R28). -/
  out : Byte
  /-- STATUS.ENG (R30). -/
  eng : Phase
  /-- STATUS.ERR_SINK (R31). -/
  errSink : Bool
  /-- FAULT, the sticky fault bits (R32). -/
  fault : Byte
  /-- PRNG; `none` is the spec's `unseeded` (R29). -/
  prng : Option PrngState
  /-- The configuration, which no event changes (R35; log entry 1). -/
  cfg : Config
  /-- The model's own field: the event words presented and not yet taken, oldest first (log entry 2). -/
  events : List EventWord
  /-- The model's own field: the observation so far, oldest first (R13; log entry 13). -/
  obs : List Obs
deriving DecidableEq, Repr

/-- Why the machine stops with a fault. -/
inductive Fault where
  /-- FAULT is not 0, so no event has a step, TICK included (60_exceptions.md R172, 30_encoding.md R80 a). Raised by
  every event. Safe: the model stops where the spec has no step (log entry 3). -/
  | quiescent
deriving DecidableEq, Repr

/-- Why a step has no meaning. -/
inductive Refusal where
  /-- An event without a meaning. No arm of `exec` answers so. Safe. -/
  | notModelled (mnemonic : String)
  /-- The configuration is none of those 00_scope.md R6 admits. Raised by every event. Safe: the spec gives such a
  configuration no meaning (log entry 10). -/
  | configNotAdmitted
  /-- The state breaks an invariant of 10_state.md R36, which no run from reset does (R55, U22). Raised by every event.
  Safe: the spec gives such a start state no meaning (log entry 10). -/
  | stateOutsideInvariants
  /-- CONSUME where ENG is not WAIT or READY is 0: the engine waits and the event has no step (R80 b, R110). Raised by
  CONSUME. Safe (log entry 3). -/
  | consumeNotEnabled
  /-- No event word is presented, so there is no event to step by. Raised by `step`. Safe (log entry 2). -/
  | noEventPresented
deriving DecidableEq, Repr

/-- What an event answers. -/
abbrev Result := Host.Outcome State Fault Refusal

/-- Power-on reset of a block built with the configuration `c` (70_reset_and_hazards.md R200). -/
def State.resetWith (c : Config) : State where
  duty := 0
  ready := false
  wuc := 0
  pac := 0
  chans := Vector.replicate 8 Channel.idle
  out := 0x00#8
  eng := .uninit
  errSink := false
  fault := 0x00#8
  prng := none
  cfg := c
  events := []
  obs := []

/-- The machine right after reset: this hardware's configuration and the reset column of R34 (R200). -/
def State.reset : State := State.resetWith Config.hardware

end Sys2Proof.Machine
end

