-- ==== Sys2Proof/Machine/Operands.lean ====
section
/-! DEFINITION. How a value is reached and computed: reads of the waveform ROM and of the per-channel file, the random
generator's two functions, the wrapping counters, the draw's candidate, the channel's two updates and the packing of the
channels' bits (spec/00_scope.md R10, R11; spec/20_memory.md R50, R51; spec/41_animation_engine.md R112 to R124). -/

namespace Sys2Proof.Machine

/-! ### The waveform ROM -/

/-- The entry a memory lists at an index, if it lists one. -/
def memLookup : Memory → Nat → Option Byte
  | [], _ => none
  | (a, b) :: rest, k => if a = k then some b else memLookup rest k

/-- What an index that the configuration does not list reads as: the open table's entry under the limits of R51, which
are W[0] = 0 and W[k] ≤ R (log entry 7). Every table R51 admits is such a table for some value of `Config.openWave`. -/
def unlistedEntry (c : Config) (k : Nat) : Nat :=
  if k = 0 then 0 else min (Config.openWave k) c.pwmResolution

/-- `MemRead(k, 1)`, entry k of WAVE (R11, R50). The indices are 0..L-1, and no meaning runs in a state that holds
another one (R55). A threshold is a number in 0..R: its width THR_W follows R (R7; log entry 9). -/
def memRead (c : Config) (k : Nat) : Nat :=
  match memLookup c.wave k with
  | some b => b.toNat
  | none => unlistedEntry c k

/-! ### The random generator -/

/-- `prng_seed` (R5, R192). -/
def prngSeed (c : Config) (seed : Seed) : PrngState :=
  match c.prng with
  | .hardware => Config.openPrngSeed seed
  | .scripted _ => 0

/-- `prng_next`: the byte drawn and the state after (R5, R192). A draw past the end of a script is open. -/
def prngNext (c : Config) (p : PrngState) : Byte × PrngState :=
  match c.prng with
  | .hardware => Config.openPrngNext p
  | .scripted draws =>
    match draws[p]? with
    | some b => (b, p + 1)
    | none => ((Config.openPrngNext p).1, p + 1)

/-! ### Counters and the cascade -/

/-- `(v + 1) mod n`, the one way a counter advances (R10, R100, R113, R115, R120). -/
def wrapInc (v n : Nat) : Nat := (v + 1) % n

/-- The counters after the cascade of a CONSUME, and which events it is (R112 to R116). -/
structure Cascade where
  wuc : Nat
  pac : Nat
  /-- It is a waveform-update event (R114). -/
  wu : Bool
  /-- It is a draw event (R116). -/
  draw : Bool
deriving DecidableEq, Repr

/-- Step 3 of CONSUME. The period boundary is SNAP = 0 (R112); both wraps are tested on the advanced counter of this
event (R114, R116). -/
def cascade (c : Config) (snap wuc pac : Nat) : Cascade :=
  if snap = 0 then
    if wrapInc wuc c.waveformUpdateCount = 0 then
      { wuc := 0, pac := wrapInc pac c.prngUpdateCount, wu := true,
        draw := decide (wrapInc pac c.prngUpdateCount = 0) }
    else { wuc := wrapInc wuc c.waveformUpdateCount, pac := pac, wu := false, draw := false }
  else { wuc := wuc, pac := pac, wu := false, draw := false }

/-! ### The per-channel file -/

/-- Entry i of the file: an absent channel, i ≥ N, reads as idle (R26, R27). -/
def readChannel (c : Config) (chans : Vector Channel 8) (i : Fin 8) : Channel :=
  if i.val < c.channels then chans[i] else Channel.idle

/-- The candidate of a draw: `b & M` (R118). -/
def candidate (c : Config) (b : Byte) : Nat := b.toNat &&& c.activeMask

/-- Step 4 of CONSUME at a draw event: the one channel whose number is the candidate, if there is one, is set active;
its index is not written (R118, R119). -/
def activate (c : Config) (b : Byte) (chans : Vector Channel 8) : Vector Channel 8 :=
  Vector.ofFn fun i : Fin 8 =>
    if i.val = candidate c b ∧ i.val < c.channels then { chans[i] with active := true } else chans[i]

/-- One waveform advance of one channel: an active one moves on, and completes when it wraps to 0 (R120, R121). -/
def Channel.advance (len : Nat) (ch : Channel) : Channel :=
  if ch.active then { active := decide (wrapInc ch.widx len ≠ 0), widx := wrapInc ch.widx len } else ch

/-- Step 5 of CONSUME at a waveform-update event: every channel i < N (R120, R121). -/
def advanceAll (c : Config) (chans : Vector Channel 8) : Vector Channel 8 :=
  Vector.ofFn fun i : Fin 8 =>
    if i.val < c.channels then (chans[i]).advance c.waveformLength else chans[i]

/-! ### Output composition -/

/-- The brightness-to-bit decoder: `zext_8(SNAP) < thr`, unsigned and strict (R123). -/
def brightnessBit (snap thr : Nat) : Bool := decide (snap < thr)

/-- Channel i's output bit, 0 for an absent channel (R122 to R124). -/
def channelBit (c : Config) (snap : Nat) (chans : Vector Channel 8) (i : Fin 8) : Bool :=
  decide (i.val < c.channels) && brightnessBit snap (memRead c (chans[i]).widx)

/-- One bit at position i of a byte. -/
def bitAt (b : Bool) (i : Nat) : Byte := (BitVec.ofBool b).zeroExtend 8 <<< i

/-- The output multiplexer: bit i of the byte is f i (R124). -/
def packBits (f : Fin 8 → Bool) : Byte :=
  bitAt (f 0) 0 ||| bitAt (f 1) 1 ||| bitAt (f 2) 2 ||| bitAt (f 3) 3 |||
  bitAt (f 4) 4 ||| bitAt (f 5) 5 ||| bitAt (f 6) 6 ||| bitAt (f 7) 7

/-- Step 6 of CONSUME: the byte of the current indices and the snapshot (R122 to R125). -/
def compose (c : Config) (snap : Nat) (chans : Vector Channel 8) : Byte :=
  packBits (channelBit c snap chans)

end Sys2Proof.Machine
end

