-- ==== Sys2Proof/Machine/Admit.lean ====
section
/-! DEFINITION. Which configurations and which states the spec gives a meaning: the bounds of spec/00_scope.md R6 and
spec/20_memory.md R51, and the invariants (a) to (h) of spec/10_state.md R36. Anything else is refused (R6, R55, U22; log
entry 10). -/

namespace Sys2Proof.Machine

/-- n is a power of two (R6). -/
def isPowerOfTwo (n : Nat) : Bool := 2 ^ n.log2 == n

/-- The listed indices rise strictly and are all at least `lo`. -/
def memRisingFrom : Nat → Memory → Bool
  | _, [] => true
  | lo, (a, _) :: rest => decide (lo ≤ a) && memRisingFrom (a + 1) rest

/-- One listed entry is in the ROM and within R51: W[k] ≤ R, and W[0] = 0. -/
def cellAdmitted (c : Config) (cell : Host.Cell) : Bool :=
  decide (cell.1 < c.waveformLength) && decide (cell.2.toNat ≤ c.pwmResolution) &&
    (cell.1 != 0 || cell.2 == 0x00#8)

/-- The ROM the configuration lists is a table R51 admits. What it does not list is within R51 by `unlistedEntry`. -/
def waveAdmitted (c : Config) : Bool := memRisingFrom 0 c.wave && c.wave.all (cellAdmitted c)

/-- The canonical form of a configuration's ROM: indices strictly rising, and no listed entry equal to what its index
would read as unlisted. -/
def memWf (c : Config) : Bool :=
  memRisingFrom 0 c.wave && c.wave.all fun cell => cell.2.toNat != unlistedEntry c cell.1

/-- The admitted configurations (R6): R, L, U and P are powers of two, N is 2, 4 or 8, M is 2^k - 1 with
N - 1 ≤ M ≤ 0xFF, and the table satisfies R51. R6 sets R no upper bound, and the widths follow the
parameters (R7; DEDUCED, log entry 9, safe). -/
def admittedConfig (c : Config) : Bool :=
  isPowerOfTwo c.pwmResolution && isPowerOfTwo c.waveformLength &&
  isPowerOfTwo c.waveformUpdateCount && isPowerOfTwo c.prngUpdateCount &&
  (c.channels == 2 || c.channels == 4 || c.channels == 8) &&
  isPowerOfTwo (c.activeMask + 1) && decide (c.channels - 1 ≤ c.activeMask) &&
  decide (c.activeMask ≤ 0xFF) && waveAdmitted c

/-- R36 (d) and (e) for one entry of the per-channel file, and an absent channel's entry is idle (R26, R27, R34). -/
abbrev channelOk (c : Config) (i : Nat) (ch : Channel) : Prop :=
  ch.widx < c.waveformLength ∧ (ch.active = false → ch.widx = 0) ∧ (c.channels ≤ i → ch = Channel.idle)

/-- The invariants of R36, in its order: (a) to (h). STATUS[7:3] of (h) has no storage (log entry 12). -/
abbrev invariantProp (s : State) : Prop :=
  s.duty < s.cfg.pwmResolution ∧
  s.wuc < s.cfg.waveformUpdateCount ∧
  s.pac < s.cfg.prngUpdateCount ∧
  (∀ i : Fin 8, channelOk s.cfg i.val (s.chans[i])) ∧
  (∀ i : Fin 8, s.cfg.channels ≤ i.val → s.out.getLsbD i.val = false) ∧
  (s.prng = none ↔ s.eng = .uninit) ∧
  s.fault &&& 0xE0#8 = 0x00#8

/-- `invariantProp` as a check. -/
def invariant (s : State) : Bool := decide (invariantProp s)

/-- The state has a meaning: an admitted configuration and every invariant (R6, R36). -/
def admissible (s : State) : Bool := admittedConfig s.cfg && invariant s

end Sys2Proof.Machine
end

