-- ==== Sys2Proof/Machine/Flags.lean ====
section
/-! DEFINITION. The flags of spec/10_state.md R37, the condition under which CONSUME has a step, and the packed views of
the registers STATUS, ACTIVE and WIDX (R34 rows 4 to 12 and 14). -/

namespace Sys2Proof.Machine

/-- The bit of FAULT that a code sets: code - 1 (R32, 60_exceptions.md R170). -/
def FaultCode.bit : FaultCode → Nat
  | .runBeforeInit => 0
  | .initTwice => 1
  | .runWhileRunning => 2
  | .spuriousAck => 3
  | .reservedEvent => 4

/-- FAULT with the bit of a code set: the bits are sticky (R32, R171). -/
def setFaultBit (f : Byte) (code : FaultCode) : Byte := f ||| (1#8 <<< code.bit)

/-- CONSUME is enabled: ENG = WAIT and READY = 1 (R80 b, R110). -/
def consumeEnabled (s : State) : Bool := s.eng == .wait && s.ready

/-- The 2-bit value of ENG (R30). -/
def Phase.code : Phase → BitVec 2
  | .uninit => 0#2
  | .stopped => 1#2
  | .wait => 2#2
  | .sink => 3#2

/-- STATUS, R34 row 14: [1:0] ENG, [2] ERR_SINK, [7:3] reserved, which read 0. -/
def statusByte (s : State) : Byte := 0#5 ++ BitVec.ofBool s.errSink ++ s.eng.code

/-- ACTIVE, R34 row 4: bit i is ACTIVE[i], and bits N..7 read 0. -/
def activeByte (s : State) : Byte := packBits fun i => (readChannel s.cfg s.chans i).active

/-- WIDX[i], R34 rows 5 to 12: 0 when i ≥ N. -/
def widxOf (s : State) (i : Fin 8) : Nat := (readChannel s.cfg s.chans i).widx

end Sys2Proof.Machine
end

