-- ==== Sys2Proof/Machine/Ops.lean ====
section
/-! DEFINITION. The operations the events share: entering an event, which makes the checks that come before its own
(spec/60_exceptions.md R172, R185), raising a fault (R171), and the state updates of the five events. A fault has no
handler and no return (R172, R187), so there is no return operation. -/

namespace Sys2Proof.Machine

/-- What every event does first: a configuration or a state without a meaning is refused (R6, R55), and once FAULT is
not 0 no event has a step (R172, R185 item 1). -/
def enter (s : State) (body : Result) : Result :=
  if admittedConfig s.cfg = false then .refused .configNotAdmitted
  else if invariant s = false then .refused .stateOutsideInvariants
  else if s.fault ≠ 0x00#8 then .fault .quiescent
  else body

/-- The state after `raise Fault(code)`: the code's bit is set and nothing else is written (R171). So a
SINK_ACK that faults adds nothing to `obs` (DESIGN CHOICE, safe, log entry 13: R13 b does not say whether it counts). -/
def withFault (code : FaultCode) (s : State) : State := { s with fault := setFaultBit s.fault code }

/-- `raise Fault(code)`: the faulting event is a step that records its bit (R80, R171; log entry 4). -/
def raiseFault (code : FaultCode) (s : State) : Result := .next (withFault code s)

/-- Presenting a reserved word (R75, R177). -/
def reservedWord (s : State) : Result := enter s (raiseFault .reservedEvent s)

/-- The state after the Tick Handler: DUTY wraps and READY is set, and no other state is written (R100). -/
def ticked (s : State) : State :=
  { s with duty := wrapInc s.duty s.cfg.pwmResolution, ready := true }

/-- The state after INIT: the values of R150. -/
def initialised (seed : Seed) (s : State) : State :=
  { s with
    duty := 0
    ready := false
    wuc := 0
    pac := 0
    chans := Vector.replicate 8 Channel.idle
    out := 0x00#8
    errSink := false
    prng := some (prngSeed s.cfg seed)
    eng := .stopped
    obs := s.obs ++ [.initSuccess] }

/-- The state after RUN (R155). -/
def running (s : State) : State := { s with errSink := false, eng := .wait }

/-- The state after a successful write (R142). -/
def writeSucceeded (s : State) : State :=
  { s with eng := .wait, obs := s.obs ++ [.sinkAnswer true s.errSink] }

/-- The state after a failed write: the loop ends with its error (R141). -/
def writeFailed (s : State) : State :=
  { s with eng := .stopped, errSink := true, obs := s.obs ++ [.sinkAnswer false true] }

/-- Step 4 of CONSUME: the per-channel file and the PRNG after the activation policy. One byte is drawn at a draw event
and at no other time (R117 to R119). -/
def activationPolicy (c : Config) (draw : Bool) (p : PrngState) (chans : Vector Channel 8) :
    Vector Channel 8 × PrngState :=
  if draw then (activate c (prngNext c p).1 chans, (prngNext c p).2) else (chans, p)

/-- Step 5 of CONSUME: the per-channel file after the waveform advance (R120). -/
def waveformAdvance (c : Config) (wu : Bool) (chans : Vector Channel 8) : Vector Channel 8 :=
  if wu then advanceAll c chans else chans

/-- Step 7 of CONSUME: `SinkWrite(byte)`, one write of the byte, and ENG is SINK until the sink answers (R126). OUT holds
the byte (R125). -/
def sinkWrite (byte : Byte) (s : State) : State :=
  { s with out := byte, eng := .sink, obs := s.obs ++ [.sinkWrite byte] }

/-- The per-channel file and the PRNG that a CONSUME of `s` leaves, its PRNG being `p` (R117 to R121, R127). -/
def channelsAfter (s : State) (p : PrngState) : Vector Channel 8 × PrngState :=
  let k := cascade s.cfg s.duty s.wuc s.pac
  let a := activationPolicy s.cfg k.draw p s.chans
  (waveformAdvance s.cfg k.wu a.1, a.2)

/-- The state after CONSUME, the PRNG being seeded with state `p`. SNAP is DUTY as CONSUME reads it, in the one action
that clears READY (R111); the parts take effect in the order of R127. -/
def consumed (p : PrngState) (s : State) : State :=
  let k := cascade s.cfg s.duty s.wuc s.pac
  let a := channelsAfter s p
  sinkWrite (compose s.cfg s.duty a.1)
    { s with ready := false, wuc := k.wuc, pac := k.pac, chans := a.1, prng := some a.2 }

end Sys2Proof.Machine
end

