-- ==== Sys2Proof/Machine/Engine.lean ====
section
/-! DEFINITION. The animation engine's events (spec/41_animation_engine.md). -/

namespace Sys2Proof.Machine

/-- CONSUME (R110): one iteration of the engine's loop, where it is enabled. The PRNG is seeded whenever ENG is WAIT
(R36 g, R117). -/
def execConsume (s : State) : Result :=
  enter s
    (if consumeEnabled s = false then .refused .consumeNotEnabled
    else
      match s.prng with
      | some p => .next (consumed p s)
      | none => .refused .stateOutsideInvariants)

/-- SINK_ACK(ok) (R140): the sink's answer to the outstanding write; with none outstanding, SPURIOUS_ACK (R176). -/
def execSinkAck (ok : Bool) (s : State) : Result :=
  enter s
    (if s.eng ≠ .sink then raiseFault .spuriousAck s
    else if ok then .next (writeSucceeded s)
    else .next (writeFailed s))

end Sys2Proof.Machine
end

