-- ==== Sys2Proof/Machine/HostCalls.lean ====
section
/-! DEFINITION. The host's two operations (spec/42_host_interface.md). -/

namespace Sys2Proof.Machine

/-- INIT(seed) (R150): once, first; a second one is INIT_TWICE (R152). -/
def execInit (seed : Seed) (s : State) : Result :=
  enter s (if s.eng ≠ .uninit then raiseFault .initTwice s else .next (initialised seed s))

/-- RUN (R155): before INIT it is RUN_BEFORE_INIT (R156), while the loop runs RUN_WHILE_RUNNING (R157). -/
def execRun (s : State) : Result :=
  enter s
    (match s.eng with
    | .uninit => raiseFault .runBeforeInit s
    | .wait => raiseFault .runWhileRunning s
    | .sink => raiseFault .runWhileRunning s
    | .stopped => .next (running s))

end Sys2Proof.Machine
end

