-- ==== Sys2Proof/Machine/TickHandler.lean ====
section
/-! DEFINITION. The tick handler's event (spec/40_tick_handler.md). -/

namespace Sys2Proof.Machine

/-- TICK (R100): it is enabled in every phase and never faults (R103). -/
def execTick (s : State) : Result := enter s (.next (ticked s))

end Sys2Proof.Machine
end

