-- ==== Sys2Proof/Machine/Dispatch.lean ====
section
/-! DEFINITION. One arm for each event: the meaning it calls. -/

namespace Sys2Proof.Machine

def exec (i : Instr) (s : State) : Host.Outcome State Fault Refusal :=
  match i with
  | .init seed => Sys2Proof.Machine.execInit seed s
  | .run => Sys2Proof.Machine.execRun s
  | .tick => Sys2Proof.Machine.execTick s
  | .consume => Sys2Proof.Machine.execConsume s
  | .sinkAck ok => Sys2Proof.Machine.execSinkAck ok s

end Sys2Proof.Machine
end

