-- ==== Sys2Proof/Machine/Present.lean ====
section
/-! DEFINITION. Presenting an event word to the block (spec/30_encoding.md R75, R76, R80) and taking the next one of the
words that wait in `events` (log entry 2). -/

namespace Sys2Proof.Machine

/-- Present one word: its event is run, or it is reserved and raises RESERVED_EVENT (R75, R177). FAULT is looked at
before the word is (R185), by `enter` in both cases. -/
def present (w : EventWord) (s : State) : Result :=
  match decode w with
  | .event i => exec i s
  | .reserved _ => reservedWord s

/-- The state with `ws` as the words still to be taken. -/
def withEvents (ws : List EventWord) (s : State) : State := { s with events := ws }

/-- Take the oldest word that waits and present it. With none there is no event (R12). -/
def takeEvent (s : State) : Result :=
  match s.events with
  | [] => .refused .noEventPresented
  | w :: rest => present w (withEvents rest s)

/-- The state in which the next event taken is the word `w`, whose low `nbits` bits count. -/
def presentNext (s : State) (nbits w : Nat) : State := withEvents (tableWord nbits w :: s.events) s

end Sys2Proof.Machine
end

