-- ==== Sys2Proof/Machine/Step.lean ====
section
/-! DEFINITION. One step: the next event of the run's one total order (spec/00_scope.md R12, spec/20_memory.md R61). -/

namespace Sys2Proof.Machine

/-- One step. -/
def step (s : State) : Host.Outcome State Fault Refusal := takeEvent s

/-- `s` with the word placed so that the very next step takes it (log entry 2). -/
def State.withFetchWord (s : State) (nbits w : Nat) : State := presentNext s nbits w

end Sys2Proof.Machine
end

