-- ==== Sys2Proof/Machine/Ports.lean ====
section
/-! DEFINITION. The informative port view of spec/30_encoding.md R78. No meaning depends on it, and it fixes no timing. -/

namespace Sys2Proof.Machine

/-- The level outputs: `status_o`, `fault_o`, `out_o`, and `sink_data_o`, whose data is OUT. -/
structure Levels where
  status : Byte
  fault : Byte
  out : Byte
  sinkData : Byte
deriving DecidableEq, Repr

/-- The level outputs in a state. -/
def levels (s : State) : Levels where
  status := statusByte s
  fault := s.fault
  out := s.out
  sinkData := s.out

/-- The outputs asserted by an event: `sink_wr_o` and `prng_next_o`. -/
structure Pulses where
  sinkWr : Bool
  prngNext : Bool
deriving DecidableEq, Repr

/-- What an event asserts in a state in which it has a step: a CONSUME issues one write, and takes one draw where it is a
draw event (R117, R126). -/
def pulses (i : Instr) (s : State) : Pulses :=
  match i with
  | .init _ => ⟨false, false⟩
  | .run => ⟨false, false⟩
  | .tick => ⟨false, false⟩
  | .consume => ⟨true, (cascade s.cfg s.duty s.wuc s.pac).draw⟩
  | .sinkAck _ => ⟨false, false⟩

/-- The inputs: `tick_i`, `host_init_i` with `host_seed_i`, `host_run_i`, `sink_ack_i` with `sink_ok_i`, which stand for
events, and `prng_byte_i`, which answers `prng_next_o` within a CONSUME. CONSUME is the engine's own step and has no input
that asks for it. -/
structure Inputs where
  tick : Bool
  hostInit : Bool
  hostSeed : Seed
  hostRun : Bool
  sinkAck : Bool
  sinkOk : Bool
  prngByte : Byte
deriving DecidableEq, Repr

/-- The events that the asserted inputs stand for. They are serialized, and any order of them is a run (60_exceptions.md
R184); this list is one of the orders. -/
def inputEvents (p : Inputs) : List Instr :=
  (if p.tick then [.tick] else []) ++ (if p.hostInit then [.init p.hostSeed] else []) ++
  (if p.hostRun then [.run] else []) ++ (if p.sinkAck then [.sinkAck p.sinkOk] else [])

/-- The byte of the Random Source that answers `prng_next_o` at an event: that of the one `prng_next` of a CONSUME that is a
draw event (R117); none where the event asserts no `prng_next_o`. -/
def prngAnswer (i : Instr) (s : State) : Option Byte :=
  if (pulses i s).prngNext then s.prng.map fun p => (prngNext s.cfg p).1 else none

/-- The inputs carry on `prng_byte_i` the byte that answers the event's `prng_next_o`; where it is not asserted the byte is
not read. -/
def Inputs.answerDraw (p : Inputs) (i : Instr) (s : State) : Bool :=
  match prngAnswer i s with
  | some b => p.prngByte == b
  | none => true

end Sys2Proof.Machine
end

