-- ==== Sys2Proof/Machine/Trace.lean ====
section
/-! DEFINITION. The assembler of traces: text to event words (spec/30_encoding.md R79), with the pseudo-events expanded in
place before encoding (R81). Points of the notation that R79 does not fix are in log entry 15. -/

namespace Sys2Proof.Machine

/-- One event of a trace as it is written (R79, R81). -/
inductive TraceItem where
  | init (seed : Nat)
  | run
  | tick
  | consume
  | ack (ok : Bool)
  /-- One tick serviced with no drop and a successful write. -/
  | step
  | steps (n : Nat)
  | ticks (n : Nat)
  /-- R copies of `step`. -/
  | period
deriving DecidableEq, Repr

/-- A seed that does not fit in 32 bits is refused (R79). -/
def TraceItem.wf : TraceItem → Bool
  | .init seed => seedFits seed
  | .run => true
  | .tick => true
  | .consume => true
  | .ack _ => true
  | .step => true
  | .steps _ => true
  | .ticks _ => true
  | .period => true

/-- `n` copies of a list of events. -/
def copies (n : Nat) (is : List Instr) : List Instr := (List.replicate n is).flatten

/-- The expansion of `step` (R81). -/
def stepEvents : List Instr := [.tick, .consume, .sinkAck true]

/-- The events an item stands for (R79, R81). -/
def TraceItem.expand (c : Config) : TraceItem → List Instr
  | .init seed => [.init (BitVec.ofNat 32 seed)]
  | .run => [.run]
  | .tick => [.tick]
  | .consume => [.consume]
  | .ack ok => [.sinkAck ok]
  | .step => stepEvents
  | .steps n => copies n stepEvents
  | .ticks n => copies n [.tick]
  | .period => copies c.pwmResolution stepEvents

/-- The words of a trace, or none where an item is refused: no word is produced then (R79, E6). -/
def assemble (c : Config) (items : List TraceItem) : Option (List EventWord) :=
  if items.all TraceItem.wf then some (items.flatMap fun it => (it.expand c).map encode) else none

/-- The pieces of a text between the characters that `p` holds of. -/
def splitAt (p : Char → Bool) : List Char → List (List Char)
  | [] => [[]]
  | ch :: rest =>
    if p ch then [] :: splitAt p rest
    else
      match splitAt p rest with
      | [] => [[ch]]
      | g :: gs => (ch :: g) :: gs

/-- The tokens of a line; text after `;` is a comment (R79). -/
def tokens (line : List Char) : List (List Char) :=
  (splitAt (fun ch => ch == ' ' || ch == '\t' || ch == '\r') (line.takeWhile fun ch => ch != ';')).filter
    fun t => !t.isEmpty

/-- The value of a digit in base 16 or less. -/
def digitValue (ch : Char) : Option Nat :=
  if '0'.toNat ≤ ch.toNat ∧ ch.toNat ≤ '9'.toNat then some (ch.toNat - '0'.toNat)
  else if 'a'.toNat ≤ ch.toNat ∧ ch.toNat ≤ 'f'.toNat then some (ch.toNat - 'a'.toNat + 10)
  else if 'A'.toNat ≤ ch.toNat ∧ ch.toNat ≤ 'F'.toNat then some (ch.toNat - 'A'.toNat + 10)
  else none

/-- The digits of a number in a base, the most significant first, after `acc`. -/
def digitsIn (base : Nat) : List Char → Nat → Option Nat
  | [], acc => some acc
  | ch :: rest, acc =>
    match digitValue ch with
    | some d => if d < base then digitsIn base rest (acc * base + d) else none
    | none => none

/-- A number: decimal, or hexadecimal with a `0x` prefix (R79). -/
def number : List Char → Option Nat
  | [] => none
  | '0' :: 'x' :: [] => none
  | '0' :: 'x' :: ds => digitsIn 16 ds 0
  | ds => digitsIn 10 ds 0

/-- The item of a line's tokens: none where they spell no item, `some none` for a line with no event. -/
def lineItem : List (List Char) → Option (Option TraceItem)
  | [] => some none
  | [a] =>
    if a = "run".toList then some (some .run)
    else if a = "tick".toList then some (some .tick)
    else if a = "consume".toList then some (some .consume)
    else if a = "step".toList then some (some .step)
    else if a = "period".toList then some (some .period)
    else none
  | [a, b] =>
    if a = "init".toList then (number b).map fun n => some (.init n)
    else if a = "steps".toList then (number b).map fun n => some (.steps n)
    else if a = "ticks".toList then (number b).map fun n => some (.ticks n)
    else if a = "ack".toList ∧ b = "ok".toList then some (some (.ack true))
    else if a = "ack".toList ∧ b = "fail".toList then some (some (.ack false))
    else none
  | _ => none

/-- The items of the lines of a trace. -/
def lineItems : List (List Char) → Option (List TraceItem)
  | [] => some []
  | l :: ls =>
    match lineItem (tokens l), lineItems ls with
    | some (some it), some its => some (it :: its)
    | some none, some its => some its
    | _, _ => none

/-- The words of a trace's text, one event a line (R79). -/
def assembleText (c : Config) (text : List Char) : Option (List EventWord) :=
  (lineItems (splitAt (fun ch => ch == '\n') text)).bind (assemble c)

end Sys2Proof.Machine
end

