-- ==== Sys2Proof/Safety.lean ====
section
/-! DEFINITION. What counts as a run and as a safe one, what a claim observes, and the whole-machine predicates that
claims speak of (spec/00_scope.md R13, spec/30_encoding.md R80, spec/60_exceptions.md R172). -/

namespace Sys2Proof.Machine

/-- The four agents (R12): the two contexts of 60_exceptions.md R189, which are the Tick Handler and the Animation Engine,
and the collaborators. -/
inductive Agent where
  | tickHandler
  | engine
  | sink
  | host
deriving DecidableEq, Repr

/-- Whose event it is (R12). -/
def agentOf : Instr → Agent
  | .init _ => .host
  | .run => .host
  | .tick => .tickHandler
  | .consume => .engine
  | .sinkAck _ => .sink

/-- The state has a meaning and no fault is recorded: the premise every claim takes (R172, R36). -/
def live (s : State) : Prop := admissible s = true ∧ s.fault = 0x00#8

/-- CONSUME has a step: the state is live, ENG is WAIT and READY is 1 (R110). -/
def canConsume (s : State) : Prop := live s ∧ s.eng = .wait ∧ s.ready = true

/-- A CONSUME of this state is a period boundary: SNAP = 0 (R112). -/
def atBoundary (s : State) : Prop := s.duty = 0

/-- It is a waveform-update event: a boundary at which the advanced WUC is 0 (R114). -/
def atUpdate (s : State) : Prop := atBoundary s ∧ (s.wuc + 1) % s.cfg.waveformUpdateCount = 0

/-- It is a draw event: a waveform-update event at which the advanced PAC is 0 (R116). -/
def atDraw (s : State) : Prop := atUpdate s ∧ (s.pac + 1) % s.cfg.prngUpdateCount = 0

/-- A CONSUME of this state, drawing from the generator's state `p`, selects channel i (R117, R118). -/
def selects (s : State) (p : PrngState) (i : Fin 8) : Prop :=
  atDraw s ∧ i.val < s.cfg.channels ∧ i.val = (prngNext s.cfg p).1.toNat &&& s.cfg.activeMask

/-- The words of a trace presented one after the other from a state. -/
def runWords : List EventWord → State → Result
  | [], s => .next s
  | w :: ws, s =>
    match present w s with
    | .next t => runWords ws t
    | .fault f => .fault f
    | .refused r => .refused r

/-- A trace is a run: each of its events takes a step or raises a fault (R80). -/
def isRun (ws : List EventWord) (s : State) : Bool :=
  match runWords ws s with
  | .next _ => true
  | .fault _ => false
  | .refused _ => false

/-- A run no event of which raised a fault: FAULT is 0 at its end, and the bits are sticky (R172). -/
def isSafeRun (ws : List EventWord) (s : State) : Bool :=
  match runWords ws s with
  | .next t => t.fault == 0x00#8
  | .fault _ => false
  | .refused _ => false

/-- What a claim observes: the writes with their answers and ERR_SINK after each, and FAULT (R13). After a SINK_ACK that
faults it shows FAULT alone (DESIGN CHOICE, safe, log entry 13). -/
def observation (s : State) : List Obs × Byte := (s.obs, s.fault)

/-- How many of the observed writes have bit i set: the ticks for which channel i was ON (R123, R126). -/
def writesOn (i : Fin 8) (l : List Obs) : Nat :=
  l.countP fun o =>
    match o with
    | .initSuccess => false
    | .sinkWrite b => b.getLsbD i.val
    | .sinkAnswer _ _ => false

/-- Events run one after the other, where each has a next state. -/
def runEvents : List Instr → State → Option State
  | [], s => some s
  | i :: is, s =>
    match exec i s with
    | .next t => runEvents is t
    | .fault _ => none
    | .refused _ => none

/-- Every channel is IDLE, or ANIM(k) for a k from 1 (41_animation_engine.md R128). -/
def channelsIdleOrAnimating (s : State) : Prop :=
  ∀ i : Fin 8, (s.chans[i]).active = true ↔ (s.chans[i]).widx ≠ 0

/-- At most one channel animates, and its index is PAC + 1: it was activated at the last draw event, which advanced it to
1, and every waveform-update event since has advanced both (70_reset_and_hazards.md R210). -/
def oneChannelAnimates (s : State) : Prop :=
  (∀ i : Fin 8, (s.chans[i]).active = true → (s.chans[i]).widx = s.pac + 1) ∧
  (∀ i j : Fin 8, (s.chans[i]).active = true → (s.chans[j]).active = true → i = j)

/-- Whether a write is outstanding after the observations, `pending` telling whether one was before; none where a write was
issued over an unanswered one, or an answer came to no write (20_memory.md R59, 60_exceptions.md R190). -/
def outstanding : Bool → List Obs → Option Bool
  | pending, [] => some pending
  | pending, .initSuccess :: rest => outstanding pending rest
  | pending, .sinkWrite _ :: rest => if pending then none else outstanding true rest
  | pending, .sinkAnswer _ _ :: rest => if pending then outstanding false rest else none

/-- Every write issued so far is answered once, but for the last one while ENG is SINK (R126, R140, R190). -/
def writesAnswered (s : State) : Prop := outstanding false s.obs = some (s.eng == .sink)

end Sys2Proof.Machine
end

