-- ==== Sys2Proof/Certificates/Slice0/Obligations.lean ====
section
/-! DEFINITION. The statements for the provers. `live s` is the premise that the spec gives every claim (R172): an admitted
configuration, the invariants of R36 and FAULT = 0. A statement over `Sys2Proof.Machine.exec` whose conclusion is an
equality with a next state says where its event completes. -/

open Sys2Proof Sys2Proof.Machine

/-! ### The event word -/

/-- 95_test_vectors.md L2.1: the words written out there decode as they are said to. -/
def Obligations.SpecWordsDecode : Prop :=
  decode 0x0000000001#40 = .event (.init 0#32) ∧
  decode 0x1234567801#40 = .event (.init 0x12345678#32) ∧
  decode 0xFFFFFFFF01#40 = .event (.init 0xFFFFFFFF#32) ∧
  decode 0x0000000002#40 = .event .run ∧
  decode 0x0000000003#40 = .event .tick ∧
  decode 0x0000000004#40 = .event .consume ∧
  decode 0x0000000105#40 = .event (.sinkAck true) ∧
  decode 0x0000000005#40 = .event (.sinkAck false) ∧
  decode 0x0000000013#40 = .reserved .rsvField ∧
  decode 0x0000000103#40 = .reserved .payload ∧
  decode 0x0000000205#40 = .reserved .payload ∧
  decode 0x0000000006#40 = .reserved .opcode

/-- R72 to R74: the decoder reads back every event, with every operand at every value. -/
def Obligations.DecodeOfEncodeIsTheEvent : Prop :=
  ∀ i : Instr, decode (encode i) = .event i

/-- R71 to R76: an event is spelled by one word only, the one the encoder gives, and no bit of a word is ignored. -/
def Obligations.EveryEventHasOneWord : Prop :=
  ∀ (w : EventWord) (i : Instr), decode w = .event i → encode i = w

/-- R73: the opcode map's masks and matches; a word decodes to an event of a row exactly when it matches the row; at most
one row matches any word. -/
def Obligations.WordsDecodeByTheOpcodeMap : Prop :=
  opcodeTable =
    [⟨"INIT", 0x00000000FF#40, 0x0000000001#40⟩, ⟨"RUN", 0xFFFFFFFFFF#40, 0x0000000002#40⟩,
     ⟨"TICK", 0xFFFFFFFFFF#40, 0x0000000003#40⟩, ⟨"CONSUME", 0xFFFFFFFFFF#40, 0x0000000004#40⟩,
     ⟨"SINK_ACK", 0xFFFFFFFEFF#40, 0x0000000005#40⟩] ∧
  (∀ w : EventWord, ∀ r ∈ opcodeTable,
    (w &&& r.mask = r.pattern ↔ ∃ i, decode w = .event i ∧ i.row = r)) ∧
  (∀ w : EventWord, ∀ r ∈ opcodeTable, ∀ r' ∈ opcodeTable,
    w &&& r.mask = r.pattern → w &&& r'.mask = r'.pattern → r = r')

/-- R75 and R177: the reserved words are the three cases of R75, and presenting one records RESERVED_EVENT and changes
nothing else. -/
def Obligations.ReservedWordsRaiseTheirFault : Prop :=
  (∀ w : EventWord, (∃ why, decode w = .reserved why) ↔
    (w.toNat % 16 = 0 ∨ 6 ≤ w.toNat % 16) ∨
    w.toNat / 16 % 16 ≠ 0 ∨
    ((w.toNat % 16 = 2 ∨ w.toNat % 16 = 3 ∨ w.toNat % 16 = 4) ∧ w.toNat / 256 ≠ 0) ∨
    (w.toNat % 16 = 5 ∧ w.toNat / 512 ≠ 0)) ∧
  (∀ (w : EventWord) (why : Reserved) (s : State), decode w = .reserved why → live s →
    present w s = .next { s with fault := 0x10#8 })

/-! ### Steps, reset and invariants -/

/-- Log entry 2: a step takes the oldest word that waits. It runs the event the word spells; a reserved word records its
fault; with no word there is no event. -/
def Obligations.StepTakesTheOldestWord : Prop :=
  (∀ (s : State) (w : EventWord) (rest : List EventWord) (i : Instr),
    s.events = w :: rest → decode w = .event i → step s = exec i { s with events := rest }) ∧
  (∀ (s : State) (w : EventWord) (rest : List EventWord) (why : Reserved),
    s.events = w :: rest → decode w = .reserved why → live s →
      step s = .next { s with events := rest, fault := 0x10#8 }) ∧
  (∀ s : State, s.events = [] → step s = .refused .noEventPresented)

/-- R61: the words that wait are run in their order, each on the state the ones before it left (log entry 2). -/
def Obligations.QueueIsRunInOrder : Prop :=
  ∀ (ws rest : List EventWord) (s t : State),
    runWords ws { s with events := rest } = .next t →
    Sys2Proof.core.run ws.length { s with events := ws ++ rest } = .next t

/-- R200: the reset values, this hardware's configuration being the one of R5. -/
def Obligations.ResetLeavesTheTableValues : Prop :=
  (State.reset.duty = 0 ∧ State.reset.ready = false ∧ State.reset.wuc = 0 ∧ State.reset.pac = 0 ∧
   (∀ i : Fin 8, (State.reset.chans[i]).active = false ∧ (State.reset.chans[i]).widx = 0) ∧
   State.reset.out = 0x00#8 ∧ State.reset.errSink = false ∧ State.reset.fault = 0x00#8 ∧
   State.reset.eng = .uninit ∧ State.reset.prng = none) ∧
  (State.reset.cfg.pwmResolution = 128 ∧ State.reset.cfg.waveformLength = 64 ∧
   State.reset.cfg.waveformUpdateCount = 2 ∧ State.reset.cfg.prngUpdateCount = 64 ∧
   State.reset.cfg.channels = 8 ∧ State.reset.cfg.activeMask = 0x1F)

/-- R36 at reset, for every admitted configuration, and this hardware's is admitted. -/
def Obligations.ResetSatisfiesTheInvariants : Prop :=
  (∀ c : Config, admittedConfig c = true → invariantProp (State.resetWith c)) ∧
  admissible State.reset = true

/-- R36: every step keeps the invariants (a) to (h), in whatever order the events come. -/
def Obligations.StepKeepsTheInvariants : Prop :=
  ∀ s t : State, admittedConfig s.cfg = true → invariantProp s → step s = .next t →
    admittedConfig t.cfg = true ∧ invariantProp t

/-- R6, R55 and U22: a configuration outside the bounds, or a state outside the invariants (an index of L or more among
them), has no meaning and is refused. -/
def Obligations.NoMeaningOutsideTheInvariants : Prop :=
  (∀ (i : Instr) (s : State), admittedConfig s.cfg = false → exec i s = .refused .configNotAdmitted) ∧
  (∀ (i : Instr) (s : State), admittedConfig s.cfg = true → ¬ invariantProp s →
    exec i s = .refused .stateOutsideInvariants) ∧
  (∀ (i : Instr) (s : State) (k : Fin 8), admittedConfig s.cfg = true →
    s.cfg.waveformLength ≤ (s.chans[k]).widx → exec i s = .refused .stateOutsideInvariants)

/-- R35: no event changes the configuration, and no read of the ROM changes (R52); the words that wait are not touched
either. -/
def Obligations.EventsKeepConfigurationAndRom : Prop :=
  ∀ (w : EventWord) (s t : State), present w s = .next t →
    t.cfg = s.cfg ∧ t.events = s.events ∧ memWf t.cfg = memWf s.cfg ∧
    ∀ k : Nat, memRead t.cfg k = memRead s.cfg k

/-- R51: every admitted table has W[0] = 0 and W[k] ≤ R, and a configuration whose ROM breaks either is not admitted. -/
def Obligations.RomIsWithinItsLimits : Prop :=
  (∀ c : Config, admittedConfig c = true →
    memRead c 0 = 0 ∧ ∀ k : Nat, memRead c k ≤ c.pwmResolution) ∧
  (∀ (c : Config) (k : Nat) (b : Byte), (k, b) ∈ c.wave →
    c.pwmResolution < b.toNat ∨ (k = 0 ∧ b ≠ 0x00#8) → admittedConfig c = false)

/-! ### Faults -/

/-- R172: once FAULT is not 0 no event has a step, TICK included, and no event clears a bit of FAULT. -/
def Obligations.QuiescentOnceFaulted : Prop :=
  (∀ s : State, admissible s = true → s.fault ≠ 0x00#8 →
    (∀ i : Instr, exec i s = .fault .quiescent) ∧
    (∀ w : EventWord, present w s = .fault .quiescent) ∧
    (s.events ≠ [] → step s = .fault .quiescent)) ∧
  (∀ (w : EventWord) (s t : State), present w s = .next t → s.fault &&& t.fault = s.fault)

/-- R171: an event that raises a fault sets one bit of FAULT and writes no other state. -/
def Obligations.FaultingEventWritesOnlyItsBit : Prop :=
  ∀ (w : EventWord) (s t : State), live s → present w s = .next t → t.fault ≠ 0x00#8 →
    t = { s with fault := t.fault } ∧
    (t.fault = 0x01#8 ∨ t.fault = 0x02#8 ∨ t.fault = 0x04#8 ∨ t.fault = 0x08#8 ∨ t.fault = 0x10#8)

/-- R170 and R173 to R177: each code, the event that raises it and its cause, and nothing else raises a fault. -/
def Obligations.FaultsByCodeAndCause : Prop :=
  (∀ s : State, live s → s.eng = .uninit → exec .run s = .next { s with fault := 0x01#8 }) ∧
  (∀ (s : State) (seed : Seed), live s → s.eng ≠ .uninit →
    exec (.init seed) s = .next { s with fault := 0x02#8 }) ∧
  (∀ s : State, live s → (s.eng = .wait ∨ s.eng = .sink) →
    exec .run s = .next { s with fault := 0x04#8 }) ∧
  (∀ (s : State) (ok : Bool), live s → s.eng ≠ .sink →
    exec (.sinkAck ok) s = .next { s with fault := 0x08#8 }) ∧
  (∀ (w : EventWord) (why : Reserved) (s : State), live s → decode w = .reserved why →
    present w s = .next { s with fault := 0x10#8 }) ∧
  (∀ (w : EventWord) (s t : State), live s → present w s = .next t → t.fault ≠ 0x00#8 →
    (decode w = .event .run ∧ s.eng ≠ .stopped) ∨
    ((∃ seed, decode w = .event (.init seed)) ∧ s.eng ≠ .uninit) ∨
    ((∃ ok, decode w = .event (.sinkAck ok)) ∧ s.eng ≠ .sink) ∨
    (∃ why, decode w = .reserved why))

/-! ### TICK -/

/-- R100: TICK, whole. -/
def Obligations.TickAdvancesDutyAndSetsReady : Prop :=
  encode .tick = 0x0000000003#40 ∧
  (∀ s : State, live s →
    exec .tick s = .next { s with duty := (s.duty + 1) % s.cfg.pwmResolution, ready := true }) ∧
  (∀ s : State, admissible s = true → s.fault ≠ 0x00#8 → exec .tick s = .fault .quiescent)

/-- R101: at R - 1 the counter wraps to 0, and nothing else records the wrap. -/
def Obligations.TickWrapsAtTheResolution : Prop :=
  ∀ s : State, live s → s.duty = s.cfg.pwmResolution - 1 →
    exec .tick s = .next { s with duty := 0, ready := true }

/-- R102: a TICK that finds READY = 1 still advances DUTY and leaves READY = 1, and nothing records the drop; k TICKs in
a row leave only their sum on DUTY (R62 c). -/
def Obligations.TicksCoalesce : Prop :=
  (∀ s : State, live s → s.ready = true →
    exec .tick s = .next { s with duty := (s.duty + 1) % s.cfg.pwmResolution }) ∧
  (∀ (k : Nat) (s : State), live s →
    runEvents (copies (k + 1) [.tick]) s =
      some { s with duty := (s.duty + (k + 1)) % s.cfg.pwmResolution, ready := true })

/-- R103: TICK is enabled in every phase and leaves the phase as it is; ticks before INIT are lost to it. -/
def Obligations.TickIsEnabledInEveryPhase : Prop :=
  (∀ s : State, live s → ∃ t, exec .tick s = .next t ∧ t.eng = s.eng ∧ live t) ∧
  (∀ (s t : State) (seed : Seed), live s → s.eng = .uninit → exec .tick s = .next t →
    exec (.init seed) t = exec (.init seed) s)

/-- R40: the Tick Handler's event writes only DUTY and READY; every other element, and every byte of the ROM, is as
before. And no other agent's event but INIT writes DUTY. -/
def Obligations.TickWritesOnlyTheSharedState : Prop :=
  (∀ (i : Instr) (s t : State), agentOf i ≠ .tickHandler → (∀ seed, i ≠ .init seed) →
    exec i s = .next t → t.duty = s.duty) ∧
  ∀ (i : Instr) (s t : State), agentOf i = .tickHandler → exec i s = .next t →
    t.wuc = s.wuc ∧ t.pac = s.pac ∧ t.chans = s.chans ∧ t.out = s.out ∧ t.eng = s.eng ∧
    t.errSink = s.errSink ∧ t.fault = s.fault ∧ t.prng = s.prng ∧ t.cfg = s.cfg ∧
    t.events = s.events ∧ t.obs = s.obs ∧ ∀ k : Nat, memRead t.cfg k = memRead s.cfg k

/-! ### CONSUME -/

/-- R80: which events have a step. CONSUME has one only when ENG = WAIT and READY = 1 and is no fault elsewhere; INIT, RUN
and SINK_ACK always step or record a fault; TICK always steps; after a fault nothing does. -/
def Obligations.EveryEventStepsOrWaitsAsTheTraceRuleSays : Prop :=
  (∀ s : State, canConsume s → ∃ t, exec .consume s = .next t ∧ t.fault = 0x00#8) ∧
  (∀ s : State, live s → s.eng ≠ .wait ∨ s.ready = false →
    exec .consume s = .refused .consumeNotEnabled) ∧
  (∀ (s : State) (seed : Seed), live s → ∃ t, exec (.init seed) s = .next t) ∧
  (∀ s : State, live s → ∃ t, exec .run s = .next t) ∧
  (∀ (s : State) (ok : Bool), live s → ∃ t, exec (.sinkAck ok) s = .next t) ∧
  (∀ s : State, live s → ∃ t, exec .tick s = .next t ∧ t.fault = 0x00#8) ∧
  (∀ (s t : State) (w : EventWord), s.fault ≠ 0x00#8 → present w s ≠ .next t)

/-- R111: the snapshot and the clear are one action. READY is 0 after it, DUTY is as it was, and the byte is that of the
DUTY the event found, over the per-channel file it leaves. -/
def Obligations.ConsumeSnapshotsAndClears : Prop :=
  ∀ s : State, canConsume s →
    ∃ t, exec .consume s = .next t ∧ t.ready = false ∧ t.duty = s.duty ∧
      t.out = compose s.cfg s.duty t.chans

/-- R112, R113 and R115: the counter cascade. Off a period boundary nothing of it happens; at one WUC advances; PAC
advances at a waveform-update event and only there. -/
def Obligations.CascadeAdvancesAtBoundaries : Prop :=
  (∀ s t : State, canConsume s → exec .consume s = .next t → ¬ atBoundary s →
    t.wuc = s.wuc ∧ t.pac = s.pac ∧ t.chans = s.chans ∧ t.prng = s.prng) ∧
  (∀ s t : State, canConsume s → exec .consume s = .next t → atBoundary s →
    t.wuc = (s.wuc + 1) % s.cfg.waveformUpdateCount) ∧
  (∀ s t : State, canConsume s → exec .consume s = .next t → atUpdate s →
    t.pac = (s.pac + 1) % s.cfg.prngUpdateCount) ∧
  (∀ s t : State, canConsume s → exec .consume s = .next t → ¬ atUpdate s → t.pac = s.pac)

/-- R116 and R117: exactly one byte is drawn at a draw event and none at any other event. -/
def Obligations.PrngIsDrawnAtDrawEventsOnly : Prop :=
  (∀ (s t : State) (p : PrngState), canConsume s → s.prng = some p → exec .consume s = .next t →
    (atDraw s → t.prng = some (prngNext s.cfg p).2) ∧ (¬ atDraw s → t.prng = some p)) ∧
  (∀ (i : Instr) (s t : State), i ≠ .consume → (∀ seed, i ≠ .init seed) → exec i s = .next t →
    t.prng = s.prng)

/-- R118 and R119: the activation match. The candidate is the drawn byte masked by M; below N it is the one channel whose
flag is set, its index kept; at N or above no flag is set. Of the 256 bytes, 256 / (M + 1) select each channel, and
256·(M + 1 - N) / (M + 1) select none. -/
def Obligations.ActivationSetsTheExactMatch : Prop :=
  (∀ (c : Config) (b : Byte) (chans : Vector Channel 8) (i : Fin 8), c.channels ≤ 8 →
    (i.val = b.toNat &&& c.activeMask → b.toNat &&& c.activeMask < c.channels →
      ((activate c b chans)[i]).active = true ∧ ((activate c b chans)[i]).widx = (chans[i]).widx) ∧
    (i.val ≠ b.toNat &&& c.activeMask → (activate c b chans)[i] = chans[i]) ∧
    (c.channels ≤ b.toNat &&& c.activeMask → activate c b chans = chans)) ∧
  (∀ c : Config, admittedConfig c = true →
    (∀ i : Nat, i < c.channels →
      (List.range 256).countP (fun b => decide (b &&& c.activeMask = i)) * (c.activeMask + 1) = 256) ∧
    (List.range 256).countP (fun b => decide (c.channels ≤ b &&& c.activeMask)) * (c.activeMask + 1) =
      256 * (c.activeMask + 1 - c.channels))

/-- R120 and R121: what becomes of each channel. The selected one is made active and its index is not reset; at a
waveform-update event an active channel, one selected in the same event among them, moves on by one index and completes
when that wraps to 0; every other channel is as it was. -/
def Obligations.ChannelsAfterConsume : Prop :=
  ∀ (s : State) (p : PrngState), canConsume s → s.prng = some p →
    ∃ t, exec .consume s = .next t ∧ ∀ i : Fin 8,
      (atUpdate s ∧ ((s.chans[i]).active = true ∨ selects s p i) →
        (t.chans[i]).widx = ((s.chans[i]).widx + 1) % s.cfg.waveformLength ∧
        ((t.chans[i]).active = true ↔ ((s.chans[i]).widx + 1) % s.cfg.waveformLength ≠ 0)) ∧
      (¬ (atUpdate s ∧ ((s.chans[i]).active = true ∨ selects s p i)) → t.chans[i] = s.chans[i])

/-- R119: at most one channel is newly activated by a CONSUME, and only at a draw event. -/
def Obligations.AtMostOneChannelIsNewlyActivated : Prop :=
  ∀ (s t : State) (i j : Fin 8), canConsume s → exec .consume s = .next t →
    (s.chans[i]).active = false → (t.chans[i]).active = true →
    atDraw s ∧ ((s.chans[j]).active = false → (t.chans[j]).active = true → i = j)

/-- R122, R124 and R125: every CONSUME writes OUT, and bit i of it is `SNAP < W[WIDX[i]]` on the indices the event leaves,
0 for a channel that does not exist. -/
def Obligations.OutputBitsCompareSnapshotWithThreshold : Prop :=
  ∀ s : State, canConsume s →
    ∃ t, exec .consume s = .next t ∧ ∀ i : Fin 8,
      (i.val < s.cfg.channels →
        (t.out.getLsbD i.val = true ↔ s.duty < memRead s.cfg (t.chans[i]).widx)) ∧
      (s.cfg.channels ≤ i.val → t.out.getLsbD i.val = false)

/-- R51 b with R123 (95_test_vectors.md L1.1, L1.10): a channel that is not active after the event contributes OFF. -/
def Obligations.InactiveChannelIsOff : Prop :=
  ∀ (s t : State) (i : Fin 8), canConsume s → exec .consume s = .next t →
    (t.chans[i]).active = false → t.out.getLsbD i.val = false

/-- R123: the comparison with a threshold thr of the ROM is true for exactly thr of the R values a snapshot can have. What
a channel shows over a PWM period is `PeriodIsOnForTheThreshold`. -/
def Obligations.DutyCycleIsTheThreshold : Prop :=
  ∀ (c : Config) (k : Nat), admittedConfig c = true →
    (List.range c.pwmResolution).countP (fun snap => brightnessBit snap (memRead c k)) =
      memRead c k

/-- R126: every CONSUME issues one write of OUT and enters SINK, and there the engine has no step until the sink
answers. -/
def Obligations.ConsumeIssuesOneSinkWrite : Prop :=
  (∀ s : State, canConsume s →
    ∃ t, exec .consume s = .next t ∧ t.obs = s.obs ++ [.sinkWrite t.out] ∧ t.eng = .sink) ∧
  (∀ s : State, live s → s.eng = .sink → exec .consume s = .refused .consumeNotEnabled)

/-- R110 "Flags written": the frame of CONSUME. It writes READY, WUC, PAC, the channels, PRNG, OUT and ENG; ERR_SINK, FAULT,
DUTY and the ROM are as before. -/
def Obligations.ConsumeFrame : Prop :=
  ∀ s t : State, exec .consume s = .next t →
    t.duty = s.duty ∧ t.errSink = s.errSink ∧ t.fault = s.fault ∧ t.cfg = s.cfg ∧
    t.events = s.events ∧ (∃ b, t.obs = s.obs ++ [.sinkWrite b]) ∧
    (∀ i : Fin 8, s.cfg.channels ≤ i.val → t.chans[i] = s.chans[i]) ∧
    ∀ k : Nat, memRead t.cfg k = memRead s.cfg k

/-! ### SINK_ACK -/

/-- R140, with R141 and R142: SINK_ACK whole. What a failure leaves of the other elements is in the equality. -/
def Obligations.SinkAckAnswersTheWrite : Prop :=
  (encode (.sinkAck true) = 0x0000000105#40 ∧ encode (.sinkAck false) = 0x0000000005#40) ∧
  (∀ s : State, live s → s.eng = .sink →
    exec (.sinkAck true) s =
      .next { s with eng := .wait, obs := s.obs ++ [.sinkAnswer true s.errSink] }) ∧
  (∀ s : State, live s → s.eng = .sink →
    exec (.sinkAck false) s =
      .next { s with eng := .stopped, errSink := true, obs := s.obs ++ [.sinkAnswer false true] }) ∧
  (∀ (s : State) (ok : Bool), live s → s.eng ≠ .sink →
    exec (.sinkAck ok) s = .next { s with fault := 0x08#8 }) ∧
  (∀ (s : State) (ok : Bool), admissible s = true → s.fault ≠ 0x00#8 →
    exec (.sinkAck ok) s = .fault .quiescent)

/-- R142: when ticks arrived during the write, CONSUME is enabled at once after a successful answer. -/
def Obligations.PendingTickIsConsumedAfterTheAck : Prop :=
  ∀ s : State, live s → s.eng = .sink → s.ready = true →
    ∃ t u, exec (.sinkAck true) s = .next t ∧ t.eng = .wait ∧ exec .consume t = .next u ∧
      u.ready = false

/-- R158: a RUN after a failed write clears ERR_SINK and resumes the loop with all other state as it was. -/
def Obligations.RunResumesAfterAFailedWrite : Prop :=
  ∀ s : State, live s → s.eng = .sink →
    runEvents [.sinkAck false, .run] s =
      some { s with eng := .wait, errSink := false, obs := s.obs ++ [.sinkAnswer false true] }

/-- R141, R155: the frame of RUN and of SINK_ACK, faulting forms among them. They write ENG, ERR_SINK and FAULT and add to
the observation; every other element and the ROM are as before. -/
def Obligations.RunAndSinkAckFrame : Prop :=
  ∀ (i : Instr) (s t : State), (i = .run ∨ ∃ ok, i = .sinkAck ok) → exec i s = .next t →
    t.duty = s.duty ∧ t.ready = s.ready ∧ t.wuc = s.wuc ∧ t.pac = s.pac ∧ t.chans = s.chans ∧
    t.out = s.out ∧ t.prng = s.prng ∧ t.cfg = s.cfg ∧ t.events = s.events ∧
    (i = .run → t.obs = s.obs) ∧ ∀ k : Nat, memRead t.cfg k = memRead s.cfg k

/-! ### INIT and RUN -/

/-- R150: INIT, whole; its result, success, is in the observation (R151). -/
def Obligations.InitSetsTheStartValues : Prop :=
  (∀ seed : Seed, encode (.init seed) = seed ++ 0x01#8) ∧
  (∀ (s : State) (seed : Seed), live s → s.eng = .uninit →
    exec (.init seed) s =
      .next { s with
        duty := 0, ready := false, wuc := 0, pac := 0, chans := Vector.replicate 8 ⟨false, 0⟩,
        out := 0x00#8, errSink := false, prng := some (prngSeed s.cfg seed), eng := .stopped,
        obs := s.obs ++ [.initSuccess] }) ∧
  (∀ (s : State) (seed : Seed), live s → s.eng ≠ .uninit →
    exec (.init seed) s = .next { s with fault := 0x02#8 }) ∧
  (∀ (s : State) (seed : Seed), admissible s = true → s.fault ≠ 0x00#8 →
    exec (.init seed) s = .fault .quiescent)

/-- R150: the frame of INIT. FAULT is as before where it has its own effect, and the ROM always. -/
def Obligations.InitFrame : Prop :=
  ∀ (s t : State) (seed : Seed), exec (.init seed) s = .next t →
    t.cfg = s.cfg ∧ t.events = s.events ∧ (s.eng = .uninit → t.fault = s.fault) ∧
    (s.eng ≠ .uninit → t = { s with fault := t.fault }) ∧
    ∀ k : Nat, memRead t.cfg k = memRead s.cfg k

/-- R155 to R157: RUN, whole. -/
def Obligations.RunStartsTheLoop : Prop :=
  encode .run = 0x0000000002#40 ∧
  (∀ s : State, live s → s.eng = .stopped →
    exec .run s = .next { s with errSink := false, eng := .wait }) ∧
  (∀ s : State, live s → s.eng = .uninit → exec .run s = .next { s with fault := 0x01#8 }) ∧
  (∀ s : State, live s → s.eng = .wait ∨ s.eng = .sink →
    exec .run s = .next { s with fault := 0x04#8 }) ∧
  (∀ s : State, admissible s = true → s.fault ≠ 0x00#8 → exec .run s = .fault .quiescent)

/-- R201, R202: the boot order from reset, however many ticks come before INIT. The engine waits, the PRNG is seeded and
everything else has its reset value. -/
def Obligations.BootOrderStartsTheLoop : Prop :=
  ∀ (c : Config) (k : Nat) (seed : Seed), admittedConfig c = true →
    runEvents (copies k [.tick] ++ [.init seed, .run]) (State.resetWith c) =
      some { State.resetWith c with
        prng := some (prngSeed c seed), eng := .wait, obs := [.initSuccess] }

/-! ### Whole-machine rules -/

/-- R30: the phase's values in STATUS, and the only events that move it; no event leads to UNINIT. -/
def Obligations.PhaseMovesOnlyAsListed : Prop :=
  (∀ s : State, (statusByte s).toNat % 4 =
    match s.eng with | .uninit => 0 | .stopped => 1 | .wait => 2 | .sink => 3) ∧
  (∀ (w : EventWord) (s t : State), present w s = .next t → t.eng ≠ s.eng →
    (s.eng = .uninit ∧ t.eng = .stopped ∧ ∃ seed, decode w = .event (.init seed)) ∨
    (s.eng = .stopped ∧ t.eng = .wait ∧ decode w = .event .run) ∨
    (s.eng = .wait ∧ t.eng = .sink ∧ decode w = .event .consume) ∨
    (s.eng = .sink ∧ t.eng = .wait ∧ decode w = .event (.sinkAck true)) ∨
    (s.eng = .sink ∧ t.eng = .stopped ∧ decode w = .event (.sinkAck false)))

/-- R34 rows 4 and 14: STATUS holds ERR_SINK at bit 2 and 0 in its reserved bits; bit i of ACTIVE is the channel's flag,
and 0 for a channel that does not exist. -/
def Obligations.StatusAndActiveLayout : Prop :=
  (∀ s : State, (statusByte s).getLsbD 2 = s.errSink ∧ (statusByte s).toNat < 8) ∧
  (∀ (s : State) (i : Fin 8), i.val < s.cfg.channels →
    (activeByte s).getLsbD i.val = (s.chans[i]).active) ∧
  (∀ (s : State) (i : Fin 8), s.cfg.channels ≤ i.val → (activeByte s).getLsbD i.val = false)

/-- R37: the writers of the flags. READY rises by TICK only and falls by CONSUME and INIT only; ERR_SINK rises by a failed
answer only and falls by RUN and INIT only; an ACTIVE flag rises by CONSUME only and falls by CONSUME and INIT only. -/
def Obligations.FlagsChangeOnlyByTheirWriters : Prop :=
  ∀ (i : Instr) (s t : State), exec i s = .next t →
    (s.ready = false → t.ready = true → i = .tick) ∧
    (s.ready = true → t.ready = false → i = .consume ∨ ∃ seed, i = .init seed) ∧
    (s.errSink = false → t.errSink = true → i = .sinkAck false) ∧
    (s.errSink = true → t.errSink = false → i = .run ∨ ∃ seed, i = .init seed) ∧
    ∀ k : Fin 8,
      ((s.chans[k]).active = false → (t.chans[k]).active = true → i = .consume) ∧
      ((s.chans[k]).active = true → (t.chans[k]).active = false → i = .consume ∨ ∃ seed, i = .init seed)

/-- R27: an index changes only by INIT, to 0, or by the waveform advance of a CONSUME, by one, and there it becomes 0
exactly when the channel stops being active. -/
def Obligations.IndexChangesOnlyByTheAdvance : Prop :=
  ∀ (i : Instr) (s t : State) (k : Fin 8), exec i s = .next t → (t.chans[k]).widx ≠ (s.chans[k]).widx →
    ((∃ seed, i = .init seed) ∧ (t.chans[k]).widx = 0) ∨
    (i = .consume ∧ atUpdate s ∧
      (t.chans[k]).widx = ((s.chans[k]).widx + 1) % s.cfg.waveformLength ∧
      ((t.chans[k]).active = false ↔ (t.chans[k]).widx = 0))

/-- 92_eei_decisions.md D4 (R184): a TICK commutes with the sink's answer and with the host's RUN. -/
def Obligations.TickCommutesWithAckAndRun : Prop :=
  (∀ (s : State) (ok : Bool), live s → s.eng = .sink →
    runEvents [.tick, .sinkAck ok] s = runEvents [.sinkAck ok, .tick] s ∧
    (runEvents [.tick, .sinkAck ok] s).isSome = true) ∧
  (∀ s : State, live s → s.eng = .stopped →
    runEvents [.tick, .run] s = runEvents [.run, .tick] s ∧
    (runEvents [.tick, .run] s).isSome = true)

/-- R197: a TICK wakes the waiting engine. -/
def Obligations.TickWakesTheWaitingEngine : Prop :=
  ∀ s : State, live s → s.eng = .wait →
    ∃ t u, exec .tick s = .next t ∧ exec .consume t = .next u ∧ u.eng = .sink ∧
      u.duty = (s.duty + 1) % s.cfg.pwmResolution

/-- 93_implementation_defined.md U19 (R190, R207): while the sink does not answer, TICKs step, the engine has no step and
the byte stays. -/
def Obligations.UnansweredWriteHoldsTheEngine : Prop :=
  ∀ (k : Nat) (s : State), live s → s.eng = .sink →
    ∃ t, runEvents (copies k [.tick]) s = some t ∧ t.eng = .sink ∧ t.out = s.out ∧
      exec .consume t = .refused .consumeNotEnabled

/-- R204: two TICKs between CONSUMEs that drop the value 0 drop that period's cascade step. -/
def Obligations.DroppedBoundaryLosesItsCascade : Prop :=
  ∀ s : State, live s → s.eng = .wait → 2 ≤ s.cfg.pwmResolution →
    s.duty = s.cfg.pwmResolution - 1 →
    ∃ t, runEvents [.tick, .tick, .consume] s = some t ∧ t.duty = 1 ∧ t.wuc = s.wuc ∧
      t.pac = s.pac ∧ t.chans = s.chans ∧ t.prng = s.prng

/-! ### Animation -/

/-- R128 (95_test_vectors.md L1.2): L advances take a channel from ACTIVE = 1, WIDX = 0 back to IDLE, and no fewer do. -/
def Obligations.FullCycleTakesLengthAdvances : Prop :=
  ∀ len : Nat, 1 ≤ len →
    (∀ n : Nat, n < len → (Channel.advance len)^[n] ⟨true, 0⟩ = ⟨true, n⟩) ∧
    (Channel.advance len)^[len] ⟨true, 0⟩ = ⟨false, 0⟩

/-- R128: between events every channel is IDLE or ANIM(k), k from 1; every step keeps it. -/
def Obligations.StepKeepsChannelsIdleOrAnimating : Prop :=
  ∀ s t : State, channelsIdleOrAnimating s → step s = .next t → channelsIdleOrAnimating t

/-- R210: where L - 1 < P, at most one channel animates at any time; every step keeps it. -/
def Obligations.StepKeepsAtMostOneChannelAnimating : Prop :=
  ∀ s t : State, s.cfg.waveformLength - 1 < s.cfg.prngUpdateCount → oneChannelAnimates s →
    step s = .next t → oneChannelAnimates t

/-- R59, R190: every write is answered once and none is issued over an unanswered one; every step keeps it. -/
def Obligations.StepKeepsWritesAnswered : Prop :=
  ∀ s t : State, writesAnswered s → step s = .next t → writesAnswered t

/-- The three predicates above hold at reset, and L - 1 < P there. -/
def Obligations.ResetStartsTheAnimationInvariants : Prop :=
  (∀ c : Config, channelsIdleOrAnimating (State.resetWith c) ∧ oneChannelAnimates (State.resetWith c) ∧
    writesAnswered (State.resetWith c)) ∧
  State.reset.cfg.waveformLength - 1 < State.reset.cfg.prngUpdateCount

/-- R209: with no dropped tick and every write answered, n serviced ticks leave DUTY = n mod R, WUC and PAC at the counts
of PWM periods and of waveform-update events, for every admitted configuration. -/
def Obligations.ServicedTicksCountPeriods : Prop :=
  ∀ (n : Nat) (s : State), live s → s.eng = .wait → s.ready = false → s.duty = 0 → s.wuc = 0 →
    s.pac = 0 →
    ∃ t, runEvents (copies n stepEvents) s = some t ∧ live t ∧ t.eng = .wait ∧ t.ready = false ∧
      t.duty = n % s.cfg.pwmResolution ∧
      t.wuc = n / s.cfg.pwmResolution % s.cfg.waveformUpdateCount ∧
      t.pac = n / (s.cfg.pwmResolution * s.cfg.waveformUpdateCount) % s.cfg.prngUpdateCount

/-- 95_test_vectors.md L1.6, as 90_conflicts.md C1 corrects it (R209, last row): a channel forced to ACTIVE = 1, WIDX = 0 at
DUTY = 0, WUC = 0 is at index n / (R·U) after n serviced ticks while that is less than L, and after exactly L·U·R of
them it is inactive at index 0, whatever is drawn. -/
def Obligations.ForcedChannelCompletesAfterTheProduct : Prop :=
  ∀ (s : State) (i : Fin 8), live s → s.eng = .wait → s.ready = false → s.duty = 0 → s.wuc = 0 →
    i.val < s.cfg.channels → s.chans[i] = ⟨true, 0⟩ →
    (∀ n : Nat, n < s.cfg.waveformLength * (s.cfg.pwmResolution * s.cfg.waveformUpdateCount) →
      ∃ t, runEvents (copies n stepEvents) s = some t ∧
        t.chans[i] = ⟨true, n / (s.cfg.pwmResolution * s.cfg.waveformUpdateCount)⟩) ∧
    (∃ t, runEvents (copies (s.cfg.waveformLength * (s.cfg.pwmResolution * s.cfg.waveformUpdateCount))
        stepEvents) s = some t ∧ t.chans[i] = ⟨false, 0⟩)

/-- R123, last paragraph: over the R serviced ticks of one PWM period, from its boundary on and with no drop, there are R
writes, and exactly W[WIDX[i]] of them have channel i ON. The index is the one the boundary leaves, constant to the end of
the period; an absent channel's is 0. -/
def Obligations.PeriodIsOnForTheThreshold : Prop :=
  ∀ (s : State) (i : Fin 8), live s → s.eng = .wait → s.ready = false →
    s.duty = s.cfg.pwmResolution - 1 →
    ∃ (b t : State) (l : List Obs), runEvents stepEvents s = some b ∧
      runEvents (copies s.cfg.pwmResolution stepEvents) s = some t ∧
      t.chans = b.chans ∧ t.duty = s.duty ∧ t.obs = s.obs ++ l ∧ l.length = 2 * s.cfg.pwmResolution ∧
      writesOn i l = memRead s.cfg (t.chans[i]).widx

/-! ### Traces -/

/-- 30_encoding.md section 3 (R79): the words of the six mnemonics; a seed that does not fit in 32 bits is refused and no
word is produced; comments and both notations of numbers are read from the text. -/
def Obligations.TraceTextAssembles : Prop :=
  (∀ (c : Config) (n : Nat), n < 2 ^ 32 →
    assemble c [.init n] = some [BitVec.ofNat 40 (n * 256 + 1)]) ∧
  (∀ (c : Config) (n : Nat) (items : List TraceItem), 2 ^ 32 ≤ n → .init n ∈ items →
    assemble c items = none) ∧
  (∀ c : Config, assemble c [.run, .tick, .consume, .ack true, .ack false] =
    some [0x0000000002#40, 0x0000000003#40, 0x0000000004#40, 0x0000000105#40, 0x0000000005#40]) ∧
  assembleText Config.hardware "init 0x12AB ; seed\nrun\nticks 2\nack fail".toList =
    some [0x000012AB01#40, 0x0000000002#40, 0x0000000003#40, 0x0000000003#40, 0x0000000005#40]

/-- R81: the expansions of the pseudo-events. -/
def Obligations.PseudoEventsExpand : Prop :=
  (∀ c : Config, assemble c [.step] =
    some [0x0000000003#40, 0x0000000004#40, 0x0000000105#40]) ∧
  (∀ (c : Config) (n : Nat), assemble c [.steps n] = assemble c (List.replicate n .step)) ∧
  (∀ (c : Config) (n : Nat), assemble c [.ticks n] = assemble c (List.replicate n .tick)) ∧
  (∀ c : Config, assemble c [.period] = assemble c (List.replicate c.pwmResolution .step)) ∧
  (∀ c : Config, (assemble c [.steps 16384]).map List.length = some 49152)

/-- R79 with R76: no word an assembled trace holds is reserved. -/
def Obligations.AssembledWordsAreEvents : Prop :=
  ∀ (c : Config) (items : List TraceItem) (ws : List EventWord), assemble c items = some ws →
    ∀ w ∈ ws, ∃ i, decode w = .event i
end

