-- ==== Sys2Proof/Laws/Admit.lean ====
section
/-! SUPPORT. What an admitted configuration and an admissible state give, and the one lemma for each answer of
`enter`. -/

namespace Sys2Proof.Machine

theorem invariant_iff (s : State) : invariant s = true ↔ invariantProp s := decide_eq_true_iff

theorem admissible_iff (s : State) :
    admissible s = true ↔ admittedConfig s.cfg = true ∧ invariantProp s := by
  rw [admissible, Bool.and_eq_true, invariant_iff]

/-! ### Powers of two -/

theorem isPowerOfTwo_iff (n : Nat) : isPowerOfTwo n = true ↔ ∃ k, n = 2 ^ k := by
  constructor
  · intro h
    exact ⟨n.log2, (eq_of_beq h).symm⟩
  · rintro ⟨k, rfl⟩
    simp [isPowerOfTwo, Nat.log2_two_pow]

theorem isPowerOfTwo_pos {n : Nat} (h : isPowerOfTwo n = true) : 0 < n := by
  obtain ⟨k, rfl⟩ := (isPowerOfTwo_iff n).1 h
  exact Nat.two_pow_pos k

/-! ### Admitted configurations -/

/-- The bounds of R6 and R51 that an admitted configuration meets. -/
theorem admittedConfig_iff (c : Config) :
    admittedConfig c = true ↔
      isPowerOfTwo c.pwmResolution = true ∧ isPowerOfTwo c.waveformLength = true ∧
      isPowerOfTwo c.waveformUpdateCount = true ∧ isPowerOfTwo c.prngUpdateCount = true ∧
      (c.channels = 2 ∨ c.channels = 4 ∨ c.channels = 8) ∧
      isPowerOfTwo (c.activeMask + 1) = true ∧ c.channels - 1 ≤ c.activeMask ∧
      c.activeMask ≤ 0xFF ∧ waveAdmitted c = true := by
  simp only [admittedConfig, Bool.and_eq_true, Bool.or_eq_true, beq_iff_eq, decide_eq_true_eq,
    and_assoc, or_assoc]

theorem admittedConfig_pwmResolution_pos {c : Config} (h : admittedConfig c = true) :
    0 < c.pwmResolution := isPowerOfTwo_pos ((admittedConfig_iff c).1 h).1

theorem admittedConfig_waveformLength_pos {c : Config} (h : admittedConfig c = true) :
    0 < c.waveformLength := isPowerOfTwo_pos ((admittedConfig_iff c).1 h).2.1

theorem admittedConfig_waveformUpdateCount_pos {c : Config} (h : admittedConfig c = true) :
    0 < c.waveformUpdateCount := isPowerOfTwo_pos ((admittedConfig_iff c).1 h).2.2.1

theorem admittedConfig_prngUpdateCount_pos {c : Config} (h : admittedConfig c = true) :
    0 < c.prngUpdateCount := isPowerOfTwo_pos ((admittedConfig_iff c).1 h).2.2.2.1

theorem admittedConfig_channels_le {c : Config} (h : admittedConfig c = true) : c.channels ≤ 8 := by
  rcases ((admittedConfig_iff c).1 h).2.2.2.2.1 with h | h | h <;> omega

theorem admittedConfig_hardware : admittedConfig Config.hardware = true := by decide

/-! ### `enter` -/

variable {s t : State} {body : Result}

/-- Everything that `enter` can do when it answers a next state. -/
theorem enter_next_iff :
    enter s body = .next t ↔ admissible s = true ∧ s.fault = 0x00#8 ∧ body = .next t := by
  unfold enter admissible
  cases h1 : admittedConfig s.cfg
  · simp
  · cases h2 : invariant s
    · simp
    · by_cases h3 : s.fault = 0x00#8 <;> simp [h3]

theorem enter_live (ha : admissible s = true) (hf : s.fault = 0x00#8) : enter s body = body := by
  rw [admissible, Bool.and_eq_true] at ha
  simp [enter, ha.1, ha.2, hf]

theorem enter_quiescent (ha : admissible s = true) (hf : s.fault ≠ 0x00#8) :
    enter s body = .fault .quiescent := by
  rw [admissible, Bool.and_eq_true] at ha
  simp [enter, ha.1, ha.2, hf]

theorem enter_configNotAdmitted (h : admittedConfig s.cfg = false) :
    enter s body = .refused .configNotAdmitted := by
  simp [enter, h]

theorem enter_stateOutsideInvariants (h : admittedConfig s.cfg = true) (hi : ¬ invariantProp s) :
    enter s body = .refused .stateOutsideInvariants := by
  rw [← invariant_iff, Bool.not_eq_true] at hi
  simp [enter, h, hi]

end Sys2Proof.Machine
end

