-- ==== Sys2Proof/Laws/Operands.lean ====
section
/-! SUPPORT. One lemma for each operation of Machine/Operands.lean: the ROM's lookup, the counters, the cascade, the
channels' updates and the packing of bits. -/

namespace Sys2Proof.Machine

theorem wrapInc_lt (v : Nat) {n : Nat} (h : 0 < n) : wrapInc v n < n := Nat.mod_lt _ h

/-! ### The cascade -/

variable {c : Config} {snap wuc pac : Nat}

/-- Off a period boundary the cascade does nothing (R112). -/
theorem cascade_off_boundary (h : snap ≠ 0) : cascade c snap wuc pac = ⟨wuc, pac, false, false⟩ := by
  simp [cascade, h]

/-- A boundary at which the advanced WUC is not 0 (R113). -/
theorem cascade_boundary (h : snap = 0) (hw : wrapInc wuc c.waveformUpdateCount ≠ 0) :
    cascade c snap wuc pac = ⟨wrapInc wuc c.waveformUpdateCount, pac, false, false⟩ := by
  simp [cascade, h, hw]

/-- A waveform-update event (R114 to R116). -/
theorem cascade_update (h : snap = 0) (hw : wrapInc wuc c.waveformUpdateCount = 0) :
    cascade c snap wuc pac =
      ⟨0, wrapInc pac c.prngUpdateCount, true, decide (wrapInc pac c.prngUpdateCount = 0)⟩ := by
  simp [cascade, h, hw]

/-- Everything the cascade can do. -/
theorem cascade_cases (c : Config) (snap wuc pac : Nat) :
    (snap ≠ 0 ∧ cascade c snap wuc pac = ⟨wuc, pac, false, false⟩) ∨
    (snap = 0 ∧ wrapInc wuc c.waveformUpdateCount ≠ 0 ∧
      cascade c snap wuc pac = ⟨wrapInc wuc c.waveformUpdateCount, pac, false, false⟩) ∨
    (snap = 0 ∧ wrapInc wuc c.waveformUpdateCount = 0 ∧
      cascade c snap wuc pac =
        ⟨0, wrapInc pac c.prngUpdateCount, true, decide (wrapInc pac c.prngUpdateCount = 0)⟩) := by
  by_cases h : snap = 0
  · by_cases hw : wrapInc wuc c.waveformUpdateCount = 0
    · exact .inr (.inr ⟨h, hw, cascade_update h hw⟩)
    · exact .inr (.inl ⟨h, hw, cascade_boundary h hw⟩)
  · exact .inl ⟨h, cascade_off_boundary h⟩

/-! ### The per-channel file -/

@[simp] theorem activate_get (c : Config) (b : Byte) (chans : Vector Channel 8) (i : Nat) (h : i < 8) :
    (activate c b chans)[i] =
      if i = candidate c b ∧ i < c.channels then { chans[i] with active := true } else chans[i] := by
  simp [activate]

@[simp] theorem advanceAll_get (c : Config) (chans : Vector Channel 8) (i : Nat) (h : i < 8) :
    (advanceAll c chans)[i] =
      if i < c.channels then (chans[i]).advance c.waveformLength else chans[i] := by
  simp [advanceAll]

@[simp] theorem advance_inactive (len k : Nat) : Channel.advance len ⟨false, k⟩ = ⟨false, k⟩ := rfl

theorem advance_active (len k : Nat) :
    Channel.advance len ⟨true, k⟩ = ⟨decide ((k + 1) % len ≠ 0), (k + 1) % len⟩ := rfl

/-- Two per-channel files with equal entries are equal. -/
theorem chans_ext {u v : Vector Channel 8} (h : ∀ i : Fin 8, u[i] = v[i]) : u = v :=
  Vector.ext fun i hi => h ⟨i, hi⟩

theorem replicate_get (ch : Channel) (i : Fin 8) : (Vector.replicate 8 ch)[i] = ch :=
  Vector.getElem_replicate i.isLt

/-! ### Packing -/

/-- Bit i of the packed byte is f i (R124). -/
theorem packBits_getLsbD (f : Fin 8 → Bool) (i : Fin 8) : (packBits f).getLsbD i.val = f i := by
  unfold packBits
  have key : ∀ b0 b1 b2 b3 b4 b5 b6 b7 : Bool, ∀ i : Fin 8,
      (bitAt b0 0 ||| bitAt b1 1 ||| bitAt b2 2 ||| bitAt b3 3 ||| bitAt b4 4 ||| bitAt b5 5 |||
        bitAt b6 6 ||| bitAt b7 7).getLsbD i.val =
      (#v[b0, b1, b2, b3, b4, b5, b6, b7])[i] := by
    intro b0 b1 b2 b3 b4 b5 b6 b7 i
    simp only [BitVec.getLsbD_or]
    have one : ∀ (b : Bool) (j : Nat) (i : Fin 8), j < 8 →
        (bitAt b j).getLsbD i.val = (b && decide (i.val = j)) := by
      intro b j i hj
      interval_cases j <;> revert b i <;> decide
    rw [one b0 0 i (by decide), one b1 1 i (by decide), one b2 2 i (by decide),
      one b3 3 i (by decide), one b4 4 i (by decide), one b5 5 i (by decide),
      one b6 6 i (by decide), one b7 7 i (by decide)]
    fin_cases i <;> simp
  rw [key]
  fin_cases i <;> rfl

@[simp] theorem compose_getLsbD (c : Config) (snap : Nat) (chans : Vector Channel 8) (i : Fin 8) :
    (compose c snap chans).getLsbD i.val = channelBit c snap chans i :=
  packBits_getLsbD _ i

/-! ### The waveform ROM -/

/-- What a lookup finds is listed. -/
theorem memLookup_mem {m : Memory} {k : Nat} {b : Byte} (h : memLookup m k = some b) : (k, b) ∈ m := by
  induction m with
  | nil => simp [memLookup] at h
  | cons cell rest ih =>
    obtain ⟨a, v⟩ := cell
    rw [memLookup] at h
    split at h
    · rename_i hk
      cases h
      simp [hk]
    · exact List.mem_cons_of_mem _ (ih h)

theorem unlistedEntry_zero (c : Config) : unlistedEntry c 0 = 0 := rfl

/-- A listed entry of an admitted configuration is in the ROM and within R51. -/
theorem waveAdmitted_mem {c : Config} (h : waveAdmitted c = true) {k : Nat} {b : Byte}
    (hm : (k, b) ∈ c.wave) :
    k < c.waveformLength ∧ b.toNat ≤ c.pwmResolution ∧ (k = 0 → b = 0x00#8) := by
  rw [waveAdmitted, Bool.and_eq_true, List.all_eq_true] at h
  have := h.2 _ hm
  simp only [cellAdmitted, Bool.and_eq_true, decide_eq_true_eq, Bool.or_eq_true, bne_iff_ne,
    beq_iff_eq] at this
  exact ⟨this.1.1, this.1.2, fun h0 => this.2.resolve_left (fun hn => hn h0)⟩

/-- This hardware's ROM lists nothing, so it is in canonical form. -/
theorem memWf_hardware : memWf Config.hardware = true := by decide

/-- The canonical form is that of the configuration alone: what keeps the configuration keeps it. -/
theorem memWf_congr {c d : Config} (h : c = d) : memWf c = memWf d := by rw [h]

end Sys2Proof.Machine
end

