-- ==== Sys2Proof/Laws/State.lean ====
section
/-! SUPPORT. One lemma for each field of each state update of Machine/Ops.lean and Machine/Present.lean: what the update
leaves in the field. No later proof unfolds an update. -/

namespace Sys2Proof.Machine

/-! ### `withFault` -/

@[simp] theorem withFault_duty (code : FaultCode) (s : State) : (withFault code s).duty = s.duty := rfl
@[simp] theorem withFault_ready (code : FaultCode) (s : State) : (withFault code s).ready = s.ready := rfl
@[simp] theorem withFault_wuc (code : FaultCode) (s : State) : (withFault code s).wuc = s.wuc := rfl
@[simp] theorem withFault_pac (code : FaultCode) (s : State) : (withFault code s).pac = s.pac := rfl
@[simp] theorem withFault_chans (code : FaultCode) (s : State) : (withFault code s).chans = s.chans := rfl
@[simp] theorem withFault_out (code : FaultCode) (s : State) : (withFault code s).out = s.out := rfl
@[simp] theorem withFault_eng (code : FaultCode) (s : State) : (withFault code s).eng = s.eng := rfl
@[simp] theorem withFault_errSink (code : FaultCode) (s : State) :
    (withFault code s).errSink = s.errSink := rfl
@[simp] theorem withFault_fault (code : FaultCode) (s : State) :
    (withFault code s).fault = setFaultBit s.fault code := rfl
@[simp] theorem withFault_prng (code : FaultCode) (s : State) : (withFault code s).prng = s.prng := rfl
@[simp] theorem withFault_cfg (code : FaultCode) (s : State) : (withFault code s).cfg = s.cfg := rfl
@[simp] theorem withFault_events (code : FaultCode) (s : State) : (withFault code s).events = s.events := rfl
@[simp] theorem withFault_obs (code : FaultCode) (s : State) : (withFault code s).obs = s.obs := rfl

/-! ### `withEvents` -/

@[simp] theorem withEvents_duty (ws : List EventWord) (s : State) : (withEvents ws s).duty = s.duty := rfl
@[simp] theorem withEvents_ready (ws : List EventWord) (s : State) : (withEvents ws s).ready = s.ready := rfl
@[simp] theorem withEvents_wuc (ws : List EventWord) (s : State) : (withEvents ws s).wuc = s.wuc := rfl
@[simp] theorem withEvents_pac (ws : List EventWord) (s : State) : (withEvents ws s).pac = s.pac := rfl
@[simp] theorem withEvents_chans (ws : List EventWord) (s : State) : (withEvents ws s).chans = s.chans := rfl
@[simp] theorem withEvents_out (ws : List EventWord) (s : State) : (withEvents ws s).out = s.out := rfl
@[simp] theorem withEvents_eng (ws : List EventWord) (s : State) : (withEvents ws s).eng = s.eng := rfl
@[simp] theorem withEvents_errSink (ws : List EventWord) (s : State) :
    (withEvents ws s).errSink = s.errSink := rfl
@[simp] theorem withEvents_fault (ws : List EventWord) (s : State) : (withEvents ws s).fault = s.fault := rfl
@[simp] theorem withEvents_prng (ws : List EventWord) (s : State) : (withEvents ws s).prng = s.prng := rfl
@[simp] theorem withEvents_cfg (ws : List EventWord) (s : State) : (withEvents ws s).cfg = s.cfg := rfl
@[simp] theorem withEvents_events (ws : List EventWord) (s : State) : (withEvents ws s).events = ws := rfl
@[simp] theorem withEvents_obs (ws : List EventWord) (s : State) : (withEvents ws s).obs = s.obs := rfl

/-! ### `ticked` -/

@[simp] theorem ticked_duty (s : State) : (ticked s).duty = wrapInc s.duty s.cfg.pwmResolution := rfl
@[simp] theorem ticked_ready (s : State) : (ticked s).ready = true := rfl
@[simp] theorem ticked_wuc (s : State) : (ticked s).wuc = s.wuc := rfl
@[simp] theorem ticked_pac (s : State) : (ticked s).pac = s.pac := rfl
@[simp] theorem ticked_chans (s : State) : (ticked s).chans = s.chans := rfl
@[simp] theorem ticked_out (s : State) : (ticked s).out = s.out := rfl
@[simp] theorem ticked_eng (s : State) : (ticked s).eng = s.eng := rfl
@[simp] theorem ticked_errSink (s : State) : (ticked s).errSink = s.errSink := rfl
@[simp] theorem ticked_fault (s : State) : (ticked s).fault = s.fault := rfl
@[simp] theorem ticked_prng (s : State) : (ticked s).prng = s.prng := rfl
@[simp] theorem ticked_cfg (s : State) : (ticked s).cfg = s.cfg := rfl
@[simp] theorem ticked_events (s : State) : (ticked s).events = s.events := rfl
@[simp] theorem ticked_obs (s : State) : (ticked s).obs = s.obs := rfl

/-! ### `initialised` -/

@[simp] theorem initialised_duty (seed : Seed) (s : State) : (initialised seed s).duty = 0 := rfl
@[simp] theorem initialised_ready (seed : Seed) (s : State) : (initialised seed s).ready = false := rfl
@[simp] theorem initialised_wuc (seed : Seed) (s : State) : (initialised seed s).wuc = 0 := rfl
@[simp] theorem initialised_pac (seed : Seed) (s : State) : (initialised seed s).pac = 0 := rfl
@[simp] theorem initialised_chans (seed : Seed) (s : State) :
    (initialised seed s).chans = Vector.replicate 8 Channel.idle := rfl
@[simp] theorem initialised_out (seed : Seed) (s : State) : (initialised seed s).out = 0x00#8 := rfl
@[simp] theorem initialised_eng (seed : Seed) (s : State) : (initialised seed s).eng = Phase.stopped := rfl
@[simp] theorem initialised_errSink (seed : Seed) (s : State) : (initialised seed s).errSink = false := rfl
@[simp] theorem initialised_fault (seed : Seed) (s : State) : (initialised seed s).fault = s.fault := rfl
@[simp] theorem initialised_prng (seed : Seed) (s : State) :
    (initialised seed s).prng = some (prngSeed s.cfg seed) := rfl
@[simp] theorem initialised_cfg (seed : Seed) (s : State) : (initialised seed s).cfg = s.cfg := rfl
@[simp] theorem initialised_events (seed : Seed) (s : State) : (initialised seed s).events = s.events := rfl
@[simp] theorem initialised_obs (seed : Seed) (s : State) :
    (initialised seed s).obs = s.obs ++ [.initSuccess] := rfl

/-! ### `running` -/

@[simp] theorem running_duty (s : State) : (running s).duty = s.duty := rfl
@[simp] theorem running_ready (s : State) : (running s).ready = s.ready := rfl
@[simp] theorem running_wuc (s : State) : (running s).wuc = s.wuc := rfl
@[simp] theorem running_pac (s : State) : (running s).pac = s.pac := rfl
@[simp] theorem running_chans (s : State) : (running s).chans = s.chans := rfl
@[simp] theorem running_out (s : State) : (running s).out = s.out := rfl
@[simp] theorem running_eng (s : State) : (running s).eng = Phase.wait := rfl
@[simp] theorem running_errSink (s : State) : (running s).errSink = false := rfl
@[simp] theorem running_fault (s : State) : (running s).fault = s.fault := rfl
@[simp] theorem running_prng (s : State) : (running s).prng = s.prng := rfl
@[simp] theorem running_cfg (s : State) : (running s).cfg = s.cfg := rfl
@[simp] theorem running_events (s : State) : (running s).events = s.events := rfl
@[simp] theorem running_obs (s : State) : (running s).obs = s.obs := rfl

/-! ### `writeSucceeded` -/

@[simp] theorem writeSucceeded_duty (s : State) : (writeSucceeded s).duty = s.duty := rfl
@[simp] theorem writeSucceeded_ready (s : State) : (writeSucceeded s).ready = s.ready := rfl
@[simp] theorem writeSucceeded_wuc (s : State) : (writeSucceeded s).wuc = s.wuc := rfl
@[simp] theorem writeSucceeded_pac (s : State) : (writeSucceeded s).pac = s.pac := rfl
@[simp] theorem writeSucceeded_chans (s : State) : (writeSucceeded s).chans = s.chans := rfl
@[simp] theorem writeSucceeded_out (s : State) : (writeSucceeded s).out = s.out := rfl
@[simp] theorem writeSucceeded_eng (s : State) : (writeSucceeded s).eng = Phase.wait := rfl
@[simp] theorem writeSucceeded_errSink (s : State) : (writeSucceeded s).errSink = s.errSink := rfl
@[simp] theorem writeSucceeded_fault (s : State) : (writeSucceeded s).fault = s.fault := rfl
@[simp] theorem writeSucceeded_prng (s : State) : (writeSucceeded s).prng = s.prng := rfl
@[simp] theorem writeSucceeded_cfg (s : State) : (writeSucceeded s).cfg = s.cfg := rfl
@[simp] theorem writeSucceeded_events (s : State) : (writeSucceeded s).events = s.events := rfl
@[simp] theorem writeSucceeded_obs (s : State) :
    (writeSucceeded s).obs = s.obs ++ [.sinkAnswer true s.errSink] := rfl

/-! ### `writeFailed` -/

@[simp] theorem writeFailed_duty (s : State) : (writeFailed s).duty = s.duty := rfl
@[simp] theorem writeFailed_ready (s : State) : (writeFailed s).ready = s.ready := rfl
@[simp] theorem writeFailed_wuc (s : State) : (writeFailed s).wuc = s.wuc := rfl
@[simp] theorem writeFailed_pac (s : State) : (writeFailed s).pac = s.pac := rfl
@[simp] theorem writeFailed_chans (s : State) : (writeFailed s).chans = s.chans := rfl
@[simp] theorem writeFailed_out (s : State) : (writeFailed s).out = s.out := rfl
@[simp] theorem writeFailed_eng (s : State) : (writeFailed s).eng = Phase.stopped := rfl
@[simp] theorem writeFailed_errSink (s : State) : (writeFailed s).errSink = true := rfl
@[simp] theorem writeFailed_fault (s : State) : (writeFailed s).fault = s.fault := rfl
@[simp] theorem writeFailed_prng (s : State) : (writeFailed s).prng = s.prng := rfl
@[simp] theorem writeFailed_cfg (s : State) : (writeFailed s).cfg = s.cfg := rfl
@[simp] theorem writeFailed_events (s : State) : (writeFailed s).events = s.events := rfl
@[simp] theorem writeFailed_obs (s : State) : (writeFailed s).obs = s.obs ++ [.sinkAnswer false true] := rfl

/-! ### `sinkWrite` -/

@[simp] theorem sinkWrite_duty (b : Byte) (s : State) : (sinkWrite b s).duty = s.duty := rfl
@[simp] theorem sinkWrite_ready (b : Byte) (s : State) : (sinkWrite b s).ready = s.ready := rfl
@[simp] theorem sinkWrite_wuc (b : Byte) (s : State) : (sinkWrite b s).wuc = s.wuc := rfl
@[simp] theorem sinkWrite_pac (b : Byte) (s : State) : (sinkWrite b s).pac = s.pac := rfl
@[simp] theorem sinkWrite_chans (b : Byte) (s : State) : (sinkWrite b s).chans = s.chans := rfl
@[simp] theorem sinkWrite_out (b : Byte) (s : State) : (sinkWrite b s).out = b := rfl
@[simp] theorem sinkWrite_eng (b : Byte) (s : State) : (sinkWrite b s).eng = Phase.sink := rfl
@[simp] theorem sinkWrite_errSink (b : Byte) (s : State) : (sinkWrite b s).errSink = s.errSink := rfl
@[simp] theorem sinkWrite_fault (b : Byte) (s : State) : (sinkWrite b s).fault = s.fault := rfl
@[simp] theorem sinkWrite_prng (b : Byte) (s : State) : (sinkWrite b s).prng = s.prng := rfl
@[simp] theorem sinkWrite_cfg (b : Byte) (s : State) : (sinkWrite b s).cfg = s.cfg := rfl
@[simp] theorem sinkWrite_events (b : Byte) (s : State) : (sinkWrite b s).events = s.events := rfl
@[simp] theorem sinkWrite_obs (b : Byte) (s : State) : (sinkWrite b s).obs = s.obs ++ [.sinkWrite b] := rfl

/-! ### `consumed` -/

@[simp] theorem consumed_duty (p : PrngState) (s : State) : (consumed p s).duty = s.duty := rfl
@[simp] theorem consumed_ready (p : PrngState) (s : State) : (consumed p s).ready = false := rfl
@[simp] theorem consumed_wuc (p : PrngState) (s : State) :
    (consumed p s).wuc = (cascade s.cfg s.duty s.wuc s.pac).wuc := rfl
@[simp] theorem consumed_pac (p : PrngState) (s : State) :
    (consumed p s).pac = (cascade s.cfg s.duty s.wuc s.pac).pac := rfl
@[simp] theorem consumed_chans (p : PrngState) (s : State) :
    (consumed p s).chans = (channelsAfter s p).1 := rfl
@[simp] theorem consumed_out (p : PrngState) (s : State) :
    (consumed p s).out = compose s.cfg s.duty (channelsAfter s p).1 := rfl
@[simp] theorem consumed_eng (p : PrngState) (s : State) : (consumed p s).eng = Phase.sink := rfl
@[simp] theorem consumed_errSink (p : PrngState) (s : State) : (consumed p s).errSink = s.errSink := rfl
@[simp] theorem consumed_fault (p : PrngState) (s : State) : (consumed p s).fault = s.fault := rfl
@[simp] theorem consumed_prng (p : PrngState) (s : State) :
    (consumed p s).prng = some (channelsAfter s p).2 := rfl
@[simp] theorem consumed_cfg (p : PrngState) (s : State) : (consumed p s).cfg = s.cfg := rfl
@[simp] theorem consumed_events (p : PrngState) (s : State) : (consumed p s).events = s.events := rfl
@[simp] theorem consumed_obs (p : PrngState) (s : State) :
    (consumed p s).obs = s.obs ++ [.sinkWrite (compose s.cfg s.duty (channelsAfter s p).1)] := rfl

end Sys2Proof.Machine
end

