-- ==== Sys2Proof/Laws/Exec.lean ====
section
/-! SUPPORT. What each event can do, said once: from `exec i s = .next t`, the state was live and `t` is one of the named
updates of `s`; and the answer of each event in each phase of a live state. -/

namespace Sys2Proof.Machine

variable {s t : State}

theorem live_iff (s : State) :
    live s ↔ admittedConfig s.cfg = true ∧ invariantProp s ∧ s.fault = 0x00#8 := by
  rw [live, admissible_iff, and_assoc]

/-- The engine's PRNG is seeded once ENG is not UNINIT (R36 g). -/
theorem live_prng (h : live s) (he : s.eng ≠ .uninit) : ∃ p, s.prng = some p := by
  rw [live_iff] at h
  cases hp : s.prng with
  | some p => exact ⟨p, rfl⟩
  | none => exact absurd (h.2.1.2.2.2.2.2.1.1 hp) he

theorem consumeEnabled_iff (s : State) : consumeEnabled s = true ↔ s.eng = .wait ∧ s.ready = true := by
  simp [consumeEnabled]

/-! ### Faults -/

theorem setFaultBit_zero (code : FaultCode) :
    setFaultBit 0x00#8 code =
      match code with
      | .runBeforeInit => 0x01#8
      | .initTwice => 0x02#8
      | .runWhileRunning => 0x04#8
      | .spuriousAck => 0x08#8
      | .reservedEvent => 0x10#8 := by
  cases code <;> rfl

/-- The one fault a live state records. -/
theorem withFault_live (code : FaultCode) (h : live s) :
    withFault code s = { s with fault := setFaultBit 0x00#8 code } := by
  rw [withFault, h.2]

/-! ### TICK -/

theorem exec_tick_iff : exec .tick s = .next t ↔ live s ∧ t = ticked s := by
  rw [exec, execTick, enter_next_iff, live, and_assoc, Host.Outcome.next.injEq, eq_comm (a := t)]

theorem exec_tick_live (h : live s) : exec .tick s = .next (ticked s) := exec_tick_iff.2 ⟨h, rfl⟩

/-! ### CONSUME -/

/-- Everything CONSUME can do when it answers a next state. -/
theorem exec_consume_iff :
    exec .consume s = .next t ↔ canConsume s ∧ ∃ p, s.prng = some p ∧ t = consumed p s := by
  rw [exec, execConsume, enter_next_iff, canConsume, live]
  constructor
  · rintro ⟨ha, hf, hb⟩
    cases he : consumeEnabled s
    · simp [he] at hb
    · cases hp : s.prng with
      | none => simp [he, hp] at hb
      | some p =>
        simp [he, hp] at hb
        exact ⟨⟨⟨ha, hf⟩, (consumeEnabled_iff s).1 he⟩, p, rfl, hb.symm⟩
  · rintro ⟨⟨⟨ha, hf⟩, he⟩, p, hp, rfl⟩
    exact ⟨ha, hf, by simp [(consumeEnabled_iff s).2 he, hp]⟩

theorem exec_consume_enabled (h : canConsume s) :
    ∃ p, s.prng = some p ∧ exec .consume s = .next (consumed p s) := by
  obtain ⟨p, hp⟩ := live_prng h.1 (by rw [h.2.1]; decide)
  exact ⟨p, hp, exec_consume_iff.2 ⟨h, p, hp, rfl⟩⟩

theorem exec_consume_waits (h : live s) (hn : s.eng ≠ .wait ∨ s.ready = false) :
    exec .consume s = .refused .consumeNotEnabled := by
  have he : consumeEnabled s = false := by
    rw [← Bool.not_eq_true, consumeEnabled_iff]
    rcases hn with hn | hn <;> simp [hn]
  rw [exec, execConsume, enter_live h.1 h.2]
  simp [he]

theorem cascade_wu_iff (s : State) : (cascade s.cfg s.duty s.wuc s.pac).wu = true ↔ atUpdate s := by
  unfold atUpdate atBoundary
  rcases cascade_cases s.cfg s.duty s.wuc s.pac with ⟨h, e⟩ | ⟨h, hw, e⟩ | ⟨h, hw, e⟩ <;>
    rw [e] <;> simp_all [wrapInc]

theorem cascade_draw_iff (s : State) :
    (cascade s.cfg s.duty s.wuc s.pac).draw = true ↔ atDraw s := by
  unfold atDraw atUpdate atBoundary
  rcases cascade_cases s.cfg s.duty s.wuc s.pac with ⟨h, e⟩ | ⟨h, hw, e⟩ | ⟨h, hw, e⟩ <;> rw [e]
  · simp [h]
  · simp [show ¬ (s.wuc + 1) % s.cfg.waveformUpdateCount = 0 from hw]
  · exact ⟨fun hd => ⟨⟨h, hw⟩, of_decide_eq_true hd⟩, fun hd => decide_eq_true hd.2⟩

/-- Channel i as the activation policy of a CONSUME leaves it: step 4 before step 5 (R118, R127). -/
def activated (s : State) (p : PrngState) (i : Nat) (h : i < 8) : Channel :=
  if (cascade s.cfg s.duty s.wuc s.pac).draw = true ∧
      i = candidate s.cfg (prngNext s.cfg p).1 ∧ i < s.cfg.channels then
    { s.chans[i] with active := true }
  else s.chans[i]

/-- Channel i after CONSUME: the activation first, then the advance (R127). -/
theorem channelsAfter_get (s : State) (p : PrngState) (i : Nat) (h : i < 8) :
    (channelsAfter s p).1[i] =
      if (cascade s.cfg s.duty s.wuc s.pac).wu = true ∧ i < s.cfg.channels then
        (activated s p i h).advance s.cfg.waveformLength
      else activated s p i h := by
  simp only [channelsAfter, activationPolicy, waveformAdvance, activated]
  split_ifs <;> simp_all

/-- The PRNG after CONSUME: one draw at a draw event, none elsewhere (R117). -/
theorem channelsAfter_prng (s : State) (p : PrngState) :
    (channelsAfter s p).2 =
      if (cascade s.cfg s.duty s.wuc s.pac).draw = true then (prngNext s.cfg p).2 else p := by
  simp only [channelsAfter, activationPolicy]
  split <;> rfl

/-! ### SINK_ACK -/

/-- Everything SINK_ACK can do when it answers a next state. -/
theorem exec_sinkAck_iff (ok : Bool) :
    exec (.sinkAck ok) s = .next t ↔
      live s ∧ ((s.eng ≠ .sink ∧ t = withFault .spuriousAck s) ∨
        (s.eng = .sink ∧ ok = true ∧ t = writeSucceeded s) ∨
        (s.eng = .sink ∧ ok = false ∧ t = writeFailed s)) := by
  rw [exec, execSinkAck, enter_next_iff, live, and_assoc]
  by_cases he : s.eng = .sink <;> cases ok <;> simp [he, raiseFault, eq_comm (b := t)]

/-! ### INIT and RUN -/

/-- Everything INIT can do when it answers a next state. -/
theorem exec_init_iff (seed : Seed) :
    exec (.init seed) s = .next t ↔
      live s ∧ ((s.eng ≠ .uninit ∧ t = withFault .initTwice s) ∨
        (s.eng = .uninit ∧ t = initialised seed s)) := by
  rw [exec, execInit, enter_next_iff, live, and_assoc]
  by_cases he : s.eng = .uninit <;> simp [he, raiseFault, eq_comm (b := t)]

/-- Everything RUN can do when it answers a next state. -/
theorem exec_run_iff :
    exec .run s = .next t ↔
      live s ∧ ((s.eng = .uninit ∧ t = withFault .runBeforeInit s) ∨
        ((s.eng = .wait ∨ s.eng = .sink) ∧ t = withFault .runWhileRunning s) ∨
        (s.eng = .stopped ∧ t = running s)) := by
  rw [exec, execRun, enter_next_iff, live, and_assoc]
  cases he : s.eng <;> simp [raiseFault, eq_comm (b := t)]

/-! ### Presenting a word -/

theorem present_event {w : EventWord} {i : Instr} (h : decode w = .event i) : present w s = exec i s := by
  rw [present, h]

theorem present_reserved {w : EventWord} {why : Reserved} (h : decode w = .reserved why) :
    present w s = reservedWord s := by
  rw [present, h]

theorem reservedWord_iff :
    reservedWord s = .next t ↔ live s ∧ t = withFault .reservedEvent s := by
  rw [reservedWord, enter_next_iff, live, and_assoc, raiseFault, Host.Outcome.next.injEq,
    eq_comm (a := t)]

/-- Every event is entered by `enter`. -/
theorem exec_eq_enter (i : Instr) (s : State) : ∃ body, exec i s = enter s body := by
  cases i <;> exact ⟨_, rfl⟩

/-- Everything a presented word can do when it answers a next state: the word's event ran, or the word is reserved. -/
theorem present_next_cases {w : EventWord} (h : present w s = .next t) :
    (∃ i, decode w = .event i ∧ exec i s = .next t) ∨
    ((∃ why, decode w = .reserved why) ∧ live s ∧ t = withFault .reservedEvent s) := by
  cases hd : decode w with
  | event i => exact .inl ⟨i, rfl, (present_event hd).symm.trans h⟩
  | reserved why => exact .inr ⟨⟨why, rfl⟩, reservedWord_iff.1 ((present_reserved hd).symm.trans h)⟩

theorem exec_next_live {i : Instr} (h : exec i s = .next t) : live s := by
  obtain ⟨body, hb⟩ := exec_eq_enter i s
  obtain ⟨ha, hf, -⟩ := enter_next_iff.1 (hb.symm.trans h)
  exact ⟨ha, hf⟩

theorem present_next_live {w : EventWord} (h : present w s = .next t) : live s := by
  rcases present_next_cases h with ⟨i, -, hi⟩ | ⟨-, hl, -⟩
  · exact exec_next_live hi
  · exact hl

end Sys2Proof.Machine
end

