-- ==== Sys2Proof/Laws/PerInstr.lean ====
section
/-! SUPPORT. The statements about every event as syntax, one lemma for each constructor. -/

namespace Sys2Proof.Laws

/-- The word of an event matches the event's row of the opcode map (spec/30_encoding.md R73). -/
def EncodeMatchesRow.Statement (i : Instr) : Prop := i.row.hits (encode i) = true

theorem EncodeMatchesRow.init (seed : Seed) : EncodeMatchesRow.Statement (.init seed) := by
  simp only [EncodeMatchesRow.Statement, Row.hits, Instr.row, encode, beq_iff_eq]
  apply BitVec.eq_of_getLsbD_eq
  intro k hk
  simp only [BitVec.getLsbD_and, BitVec.getLsbD_append]
  by_cases h : k < 8
  · simp only [h, if_true]
    interval_cases k <;> decide
  · have h0 : (0x00000000FF#40).getLsbD k = false := by interval_cases k <;> first | omega | decide
    have h1 : (0x0000000001#40).getLsbD k = false := by interval_cases k <;> first | omega | decide
    rw [h0, h1, Bool.and_false]

theorem EncodeMatchesRow.run : EncodeMatchesRow.Statement .run :=
  (by decide : Instr.run.row.hits (encode .run) = true)

theorem EncodeMatchesRow.tick : EncodeMatchesRow.Statement .tick :=
  (by decide : Instr.tick.row.hits (encode .tick) = true)

theorem EncodeMatchesRow.consume : EncodeMatchesRow.Statement .consume :=
  (by decide : Instr.consume.row.hits (encode .consume) = true)

theorem EncodeMatchesRow.sinkAck (ok : Bool) : EncodeMatchesRow.Statement (.sinkAck ok) := by
  show (Instr.sinkAck ok).row.hits (encode (.sinkAck ok)) = true
  cases ok <;> decide

end Sys2Proof.Laws
end

