-- ==== Sys2Proof/Laws/Step.lean ====
section
/-! SUPPORT. What a step is: nothing to take, or the oldest word that waits, presented to the state without it. -/

namespace Sys2Proof.Machine

variable {s t : State} {w : EventWord} {rest : List EventWord}

theorem step_nil (h : s.events = []) : step s = .refused .noEventPresented := by
  rw [step, takeEvent, h]

theorem step_cons (h : s.events = w :: rest) : step s = present w (withEvents rest s) := by
  rw [step, takeEvent, h]

/-- Everything a step can do when it answers a next state. -/
theorem step_next_cases (h : step s = .next t) :
    ∃ w rest, s.events = w :: rest ∧ present w (withEvents rest s) = .next t := by
  cases he : s.events with
  | nil => rw [step_nil he] at h; cases h
  | cons w rest => exact ⟨w, rest, rfl, (step_cons he).symm.trans h⟩

/-- The words that wait bear on no check. -/
@[simp] theorem admissible_withEvents (ws : List EventWord) (s : State) :
    admissible (withEvents ws s) = admissible s := rfl

theorem live_withEvents (ws : List EventWord) (s : State) : live (withEvents ws s) ↔ live s := Iff.rfl

/-- `withFetchWord` places the word where the very next step takes it. -/
theorem step_withFetchWord (s : State) (nbits w : Nat) :
    step (s.withFetchWord nbits w) = present (tableWord nbits w) s := rfl

end Sys2Proof.Machine
end

