-- ==== Sys2Proof/Tests/Slice0.lean ====
section
/-! SUPPORT. The model's own tests. Expected values are the spec's (spec/95_test_vectors.md, named at each test) or written
out by hand from the rule named. The second half shows, for each statement with hypotheses, a state and operands that
meet them. -/

namespace Sys2Proof.Tests

open Sys2Proof Sys2Proof.Machine

/-! ### Fixtures of 95_test_vectors.md section 0: not the hardware's table and not its PRNG -/

/-- Entry k of `W_test`. -/
def waveEntry (k : Nat) : Nat :=
  if k ≤ 32 then 4 * k else if k ≤ 48 then 128 - 8 * (k - 32) else 0

def waveTest : Memory := (List.range 64).map fun k => (k, BitVec.ofNat 8 (waveEntry k))

/-- The default parameters with N channels, `W_test`, and a PRNG that draws these bytes. -/
def config (n : Nat) (draws : List Byte) : Config :=
  { Config.hardware with channels := n, wave := waveTest, prng := .scripted draws }

/-- A waiting engine with a tick pending, DUTY = d, WUC = u, PAC = p and the per-channel file `chans`. -/
def waiting (c : Config) (d u p : Nat) (chans : Vector Channel 8) : State :=
  { State.resetWith c with
    duty := d, ready := true, wuc := u, pac := p, chans := chans, eng := .wait, prng := some 0 }

def idleAll : Vector Channel 8 := Vector.replicate 8 Channel.idle

/-- One channel of the file set. -/
def withChannel (i : Nat) (active : Bool) (widx : Nat) (chans : Vector Channel 8) : Vector Channel 8 :=
  Vector.ofFn fun j : Fin 8 => if j.val = i then ⟨active, widx⟩ else chans[j]

/-- The next state has the property. -/
def after (r : Result) (p : State → Bool) : Bool :=
  match r with
  | .next t => p t
  | .fault _ => false
  | .refused _ => false

/-- The state of this hardware after reset, in a given phase. -/
def inPhase (e : Phase) : State :=
  { State.reset with eng := e, prng := match e with | .uninit => none | _ => some 0 }

/-! ### Decoding: words of 95_test_vectors.md L2.1 -/

theorem test_decode_init : decode 0x1234567801#40 = .event (.init 0x12345678#32) := by decide

theorem test_decode_run : decode 0x0000000002#40 = .event .run := by decide

theorem test_decode_tick : decode 0x0000000003#40 = .event .tick := by decide

theorem test_decode_consume : decode 0x0000000004#40 = .event .consume := by decide

theorem test_decode_ack_ok : decode 0x0000000105#40 = .event (.sinkAck true) := by decide

theorem test_decode_ack_fail : decode 0x0000000005#40 = .event (.sinkAck false) := by decide

theorem test_decode_reserved_rsv : decode 0x0000000011#40 = .reserved .rsvField := by decide

theorem test_decode_reserved_payload :
    decode 0x0000000102#40 = .reserved .payload ∧ decode 0x8000000105#40 = .reserved .payload := by
  decide

theorem test_decode_reserved_opcode :
    decode 0x0000000000#40 = .reserved .opcode ∧ decode 0x000000000F#40 = .reserved .opcode := by
  decide

theorem test_decodeTableWord : decodeTableWord 40 0x0000000105 = some (.sinkAck true) := by decide

/-! ### Well-formedness: an ill-formed term for each check -/

/-- R79, E6: a seed of 33 bits is refused. -/
theorem test_wf_seed : seedFits 0x100000000 = false ∧ seedFits 0xFFFFFFFF = true := by decide

/-- R79: the assembler's check of an item. -/
theorem test_wf_item : TraceItem.wf (.init 0x100000000) = false := by decide

/-- Every event is well-formed: its operands' widths stand in its type. -/
theorem test_wf_event : (Instr.init 0xFFFFFFFF#32).wf = true := by decide

/-- R6, U14, U15: a period that is no power of two, a channel count outside 2, 4 and 8, a mask below N - 1 and one that is
not 2^k - 1. -/
theorem test_wf_config :
    admittedConfig { Config.hardware with pwmResolution := 100 } = false ∧
    admittedConfig { Config.hardware with channels := 3 } = false ∧
    admittedConfig { Config.hardware with activeMask := 0x03 } = false ∧
    admittedConfig { Config.hardware with activeMask := 0x1E } = false := by decide

/-- R51: a table with W[0] ≠ 0, and one with an entry above R. -/
theorem test_wf_table :
    admittedConfig { Config.hardware with wave := [(0, 1#8)] } = false ∧
    admittedConfig { Config.hardware with wave := [(5, 129#8)] } = false ∧
    admittedConfig (config 8 []) = true := by decide +kernel

/-- R55: a start state with an index of L. -/
theorem test_wf_state : invariant { State.reset with chans := withChannel 0 true 64 idleAll } = false := by
  decide

/-! ### One step of each event -/

/-- L2.2 T3 and T5. -/
theorem test_tick :
    after (exec .tick { State.reset with duty := 127, ready := true }) (fun t => t.duty == 0 && t.ready) =
      true ∧
    after (exec .tick { State.reset with duty := 9 }) (fun t => t.duty == 10 && t.eng == .uninit) = true := by
  decide

/-- L2.5 A8, A7 and A4: draw events with the draws 0xE3, 0x02, and 0x02 at N = 2. -/
theorem test_consume_draw :
    after (exec .consume (waiting (config 8 [0xE3#8]) 0 1 63 (withChannel 5 true 20 idleAll)))
      (fun t => activeByte t == 0x28#8 && widxOf t 3 == 1 && widxOf t 5 == 21 && t.prng == some 1 &&
        t.wuc == 0 && t.pac == 0) = true ∧
    after (exec .consume (waiting (config 8 [0x02#8]) 0 1 63 (withChannel 2 true 63 idleAll)))
      (fun t => activeByte t == 0x00#8 && widxOf t 2 == 0) = true ∧
    after (exec .consume (waiting (config 2 [0x02#8]) 0 1 63 idleAll))
      (fun t => activeByte t == 0x00#8 && t.prng == some 1) = true := by
  decide +kernel

/-- L2.7: the indices 1, 16, 32, 48, 0, 8, 31, 33 with ACTIVE = 0xEF at SNAP = 40 and 120. -/
theorem test_consume_output :
    let chans : Vector Channel 8 :=
      #v[⟨true, 1⟩, ⟨true, 16⟩, ⟨true, 32⟩, ⟨true, 48⟩, ⟨false, 0⟩, ⟨true, 8⟩, ⟨true, 31⟩, ⟨true, 33⟩]
    after (exec .consume (waiting (config 8 []) 40 0 0 chans))
      (fun t => t.out == 0xC6#8 && t.obs == [.sinkWrite 0xC6#8] && t.eng == .sink && !t.ready) = true ∧
    after (exec .consume (waiting (config 8 []) 120 0 0 chans)) (fun t => t.out == 0x44#8) = true := by
  decide +kernel

/-- L2.8 K-3 and K-5. -/
theorem test_sinkAck :
    after (exec (.sinkAck false) { inPhase .sink with out := 0x04#8 })
      (fun t => t.eng == .stopped && t.errSink && t.out == 0x04#8 && t.fault == 0x00#8) = true ∧
    after (exec (.sinkAck false) (inPhase .stopped)) (fun t => t.fault == 0x08#8) = true := by decide

/-- L2.9 H2 and H4. -/
theorem test_init :
    after (exec (.init 0#32) { State.reset with duty := 3, ready := true })
      (fun t => t.duty == 0 && !t.ready && t.eng == .stopped) = true ∧
    after (exec (.init 5#32) (inPhase .wait)) (fun t => t.fault == 0x02#8) = true := by decide

/-- L2.9 H7 and H5. -/
theorem test_run :
    after (exec .run { inPhase .stopped with errSink := true }) (fun t => t.eng == .wait && !t.errSink) =
      true ∧
    after (exec .run State.reset) (fun t => t.fault == 0x01#8) = true := by decide

/-- L2.10 F6: the word 0x0000000012 after reset gives 0x10, not 0x01. -/
theorem test_step_reserved_first :
    after (step (State.reset.withFetchWord 40 0x0000000012)) (fun t => t.fault == 0x10#8) = true := by decide

/-- R79: a comment, a decimal and a hexadecimal number. -/
theorem test_assembleText :
    assembleText Config.hardware "init 1 ; boot\nrun\n\nticks 0x2".toList =
      some [0x0000000101#40, 0x0000000002#40, 0x0000000003#40, 0x0000000003#40] := by decide +kernel

/-! ### Witnesses: the hypotheses of each statement, met together -/

/-- A waiting engine of this hardware with a tick pending. -/
def pending : State := { inPhase .wait with ready := true }

/-- The same at a draw event: SNAP = 0, WUC = 1, PAC = 63. -/
def drawing : State := { pending with wuc := 1, pac := 63 }

/-- An engine at a draw event with every channel idle, the PRNG drawing 0x03, so that channel 3 is selected. -/
def drawingScript : State := waiting (config 8 [0x03#8]) 0 1 63 idleAll

/-- A state whose FAULT is not 0. -/
def faulted : State := { State.reset with fault := 0x01#8 }

theorem live_inPhase : live (inPhase .uninit) ∧ live (inPhase .stopped) ∧ live (inPhase .wait) ∧
    live (inPhase .sink) := by
  refine ⟨?_, ?_, ?_, ?_⟩ <;> exact ⟨by decide, by decide⟩

theorem canConsume_pending : canConsume pending := ⟨⟨by decide, by decide⟩, by decide, by decide⟩

theorem canConsume_drawing : canConsume drawing := ⟨⟨by decide, by decide⟩, by decide, by decide⟩

theorem canConsume_drawingScript : canConsume drawingScript :=
  ⟨⟨by decide +kernel, by decide⟩, by decide, by decide⟩

/-- R78, R117: a draw event asks for one byte, and a CONSUME off the boundary for none. -/
theorem test_port_prng_byte :
    prngAnswer .consume drawingScript = some 0x03#8 ∧
    prngAnswer .consume { drawingScript with duty := 1 } = none := by decide

theorem admissible_faulted : admissible faulted = true ∧ faulted.fault ≠ 0x00#8 := by decide

theorem witness_EveryEventHasOneWord : decode 0x1234567801#40 = .event (.init 0x12345678#32) := by decide

theorem witness_WordsDecodeByTheOpcodeMap :
    (⟨"RUN", 0xFFFFFFFFFF#40, 0x0000000002#40⟩ : Row) ∈ opcodeTable ∧
    0x0000000002#40 &&& 0xFFFFFFFFFF#40 = 0x0000000002#40 := by decide

theorem witness_ReservedWordsRaiseTheirFault :
    decode 0x0000000205#40 = .reserved .payload ∧ live (inPhase .wait) := ⟨by decide, live_inPhase.2.2.1⟩

theorem witness_StepTakesTheOldestWord :
    (State.reset.withFetchWord 40 3).events = 0x3#40 :: [] ∧ decode 0x3#40 = .event .tick ∧
    (State.reset.withFetchWord 40 7).events = 0x7#40 :: [] ∧ decode 0x7#40 = .reserved .opcode ∧
    State.reset.events = [] := by decide

theorem witness_QueueIsRunInOrder :
    after (runWords [0x101#40, 0x2#40, 0x3#40] State.reset) (fun t => t.eng == .wait) = true := by decide

theorem witness_ResetSatisfiesTheInvariants : admittedConfig Config.hardware = true := by decide

theorem witness_StepKeepsTheInvariants :
    admittedConfig pending.cfg = true ∧ invariantProp pending ∧
    after (step (pending.withFetchWord 40 4)) (fun t => t.eng == .sink) = true := by decide

theorem witness_NoMeaningOutsideTheInvariants :
    admittedConfig { Config.hardware with channels := 3 } = false ∧
    admittedConfig State.reset.cfg = true ∧ ¬ invariantProp { State.reset with duty := 128 } ∧
    State.reset.cfg.waveformLength ≤ ((withChannel 0 true 64 idleAll)[0]).widx := by decide

theorem witness_EventsKeepConfigurationAndRom :
    after (present 0x4#40 pending) (fun t => t.eng == .sink) = true := by decide

theorem witness_RomIsWithinItsLimits :
    admittedConfig (config 8 []) = true ∧
    (5, 129#8) ∈ ({ Config.hardware with wave := [(5, 129#8)] } : Config).wave ∧
    Config.hardware.pwmResolution < (129#8).toNat ∧
    (0, 1#8) ∈ ({ Config.hardware with wave := [(0, 1#8)] } : Config).wave ∧ (1#8 ≠ 0x00#8) := by
  decide +kernel

theorem witness_QuiescentOnceFaulted :
    admissible faulted = true ∧ faulted.fault ≠ 0x00#8 ∧ (faulted.withFetchWord 40 3).events ≠ [] ∧
    after (present 0x2#40 State.reset) (fun t => t.fault == 0x01#8) = true := by decide

theorem witness_FaultingEventWritesOnlyItsBit :
    live (inPhase .wait) ∧ after (present 0x2#40 (inPhase .wait)) (fun t => t.fault != 0x00#8) = true :=
  ⟨live_inPhase.2.2.1, by decide⟩

theorem witness_FaultsByCodeAndCause :
    (live (inPhase .uninit) ∧ live (inPhase .wait) ∧ live (inPhase .sink)) ∧
    decode 0x7#40 = .reserved .opcode ∧
    after (present 0x105#40 (inPhase .wait)) (fun t => t.fault != 0x00#8) = true :=
  ⟨⟨live_inPhase.1, live_inPhase.2.2⟩, by decide, by decide⟩

theorem witness_TickAdvancesDutyAndSetsReady :
    live (inPhase .sink) ∧ admissible faulted = true ∧ faulted.fault ≠ 0x00#8 :=
  ⟨live_inPhase.2.2.2, admissible_faulted⟩

theorem witness_TickWrapsAtTheResolution :
    live { State.reset with duty := 127 } ∧ (127 : Nat) = State.reset.cfg.pwmResolution - 1 :=
  ⟨⟨by decide, by decide⟩, by decide⟩

theorem witness_TicksCoalesce : live pending ∧ pending.ready = true := ⟨canConsume_pending.1, by decide⟩

theorem witness_TickIsEnabledInEveryPhase :
    live State.reset ∧ State.reset.eng = .uninit ∧
    after (exec .tick State.reset) (fun t => t.duty == 1) = true := ⟨⟨by decide, by decide⟩, by decide⟩

theorem witness_TickWritesOnlyTheSharedState :
    agentOf .tick = .tickHandler ∧ after (exec .tick (inPhase .sink)) (fun t => t.ready) = true ∧
    agentOf .consume ≠ .tickHandler ∧ after (exec .consume pending) (fun t => t.eng == .sink) = true := by
  decide

theorem witness_EveryEventStepsOrWaitsAsTheTraceRuleSays :
    canConsume pending ∧ (live (inPhase .stopped) ∧ (inPhase .stopped).eng ≠ .wait) ∧
    (live (inPhase .wait) ∧ (inPhase .wait).ready = false) ∧ faulted.fault ≠ 0x00#8 :=
  ⟨canConsume_pending, ⟨live_inPhase.2.1, by decide⟩, ⟨live_inPhase.2.2.1, by decide⟩, by decide⟩

theorem witness_ConsumeSnapshotsAndClears : canConsume pending := canConsume_pending

/-- Each clause: off a boundary, at one that is no update, at an update that is no draw, and at a draw. -/
theorem witness_CascadeAdvancesAtBoundaries :
    (canConsume { pending with duty := 1 } ∧ ¬ atBoundary { pending with duty := 1 }) ∧
    (canConsume pending ∧ atBoundary pending ∧ ¬ atUpdate pending) ∧
    (canConsume drawing ∧ atUpdate drawing) ∧
    after (exec .consume { pending with duty := 1 }) (fun t => t.wuc == 0) = true ∧
    after (exec .consume pending) (fun t => t.wuc == 1) = true := by
  refine ⟨⟨⟨⟨by decide, by decide⟩, by decide, by decide⟩, by unfold atBoundary; decide⟩,
    ⟨canConsume_pending, by unfold atBoundary; decide, by unfold atUpdate atBoundary; decide⟩,
    ⟨canConsume_drawing, by unfold atUpdate atBoundary; decide⟩, by decide, by decide⟩

theorem witness_PrngIsDrawnAtDrawEventsOnly :
    (canConsume drawing ∧ drawing.prng = some 0 ∧ atDraw drawing) ∧
    (canConsume pending ∧ pending.prng = some 0 ∧ ¬ atDraw pending) ∧
    after (exec .tick pending) (fun t => t.prng == some 0) = true :=
  ⟨⟨canConsume_drawing, by decide, by unfold atDraw atUpdate atBoundary; decide⟩,
    ⟨canConsume_pending, by decide, by unfold atDraw atUpdate atBoundary; decide⟩, by decide⟩

theorem witness_ActivationSetsTheExactMatch :
    Config.hardware.channels ≤ 8 ∧ ((3 : Fin 8).val = (0xE3#8).toNat &&& Config.hardware.activeMask) ∧
    (0xE3#8).toNat &&& Config.hardware.activeMask < Config.hardware.channels ∧
    ((4 : Fin 8).val ≠ (0xE3#8).toNat &&& Config.hardware.activeMask) ∧
    Config.hardware.channels ≤ (0x08#8).toNat &&& Config.hardware.activeMask ∧
    admittedConfig Config.hardware = true := by decide

/-- Each clause: channel 3 is selected, channel 4 is not, and the state is at an update. -/
theorem witness_ChannelsAfterConsume :
    canConsume drawingScript ∧ drawingScript.prng = some 0 ∧ atUpdate drawingScript ∧
    selects drawingScript 0 3 ∧ (drawingScript.chans[4]).active = false ∧ ¬ selects drawingScript 0 4 :=
  ⟨canConsume_drawingScript, by decide, by unfold atUpdate atBoundary; decide,
    by unfold selects atDraw atUpdate atBoundary; decide +kernel, by decide,
    by unfold selects atDraw atUpdate atBoundary; decide +kernel⟩

theorem witness_AtMostOneChannelIsNewlyActivated :
    canConsume drawingScript ∧ (drawingScript.chans[3]).active = false ∧
    after (exec .consume drawingScript) (fun t => (t.chans[3]).active) = true :=
  ⟨canConsume_drawingScript, by decide, by decide +kernel⟩

theorem witness_OutputBitsCompareSnapshotWithThreshold :
    canConsume (waiting (config 2 []) 1 0 0 idleAll) ∧ (1 : Fin 8).val < (config 2 []).channels ∧
    (config 2 []).channels ≤ (2 : Fin 8).val :=
  ⟨⟨⟨by decide +kernel, by decide⟩, by decide, by decide⟩, by decide, by decide⟩

theorem witness_InactiveChannelIsOff :
    canConsume drawingScript ∧
    after (exec .consume drawingScript) (fun t => !(t.chans[4]).active) = true :=
  ⟨canConsume_drawingScript, by decide +kernel⟩

theorem witness_DutyCycleIsTheThreshold : admittedConfig (config 8 []) = true := by decide +kernel

theorem witness_ConsumeIssuesOneSinkWrite :
    canConsume pending ∧ live (inPhase .sink) ∧ (inPhase .sink).eng = .sink :=
  ⟨canConsume_pending, live_inPhase.2.2.2, by decide⟩

theorem witness_ConsumeFrame :
    after (exec .consume (waiting (config 2 []) 1 0 0 idleAll)) (fun t => t.cfg.channels == 2) = true := by
  decide +kernel

theorem witness_SinkAckAnswersTheWrite :
    (live (inPhase .sink) ∧ (inPhase .sink).eng = .sink) ∧
    (live (inPhase .wait) ∧ (inPhase .wait).eng ≠ .sink) ∧ admissible faulted = true ∧
    faulted.fault ≠ 0x00#8 :=
  ⟨⟨live_inPhase.2.2.2, by decide⟩, ⟨live_inPhase.2.2.1, by decide⟩, admissible_faulted⟩

theorem witness_PendingTickIsConsumedAfterTheAck :
    live { inPhase .sink with ready := true } ∧ (inPhase .sink).eng = .sink :=
  ⟨⟨by decide, by decide⟩, by decide⟩

theorem witness_RunResumesAfterAFailedWrite : live (inPhase .sink) ∧ (inPhase .sink).eng = .sink :=
  ⟨live_inPhase.2.2.2, by decide⟩

theorem witness_RunAndSinkAckFrame :
    after (exec .run (inPhase .stopped)) (fun t => t.eng == .wait) = true ∧
    after (exec (.sinkAck false) (inPhase .sink)) (fun t => t.errSink) = true := by decide

theorem witness_InitSetsTheStartValues :
    (live State.reset ∧ State.reset.eng = .uninit) ∧ (live (inPhase .stopped) ∧
    (inPhase .stopped).eng ≠ .uninit) ∧ admissible faulted = true ∧ faulted.fault ≠ 0x00#8 :=
  ⟨⟨⟨by decide, by decide⟩, by decide⟩, ⟨live_inPhase.2.1, by decide⟩, admissible_faulted⟩

theorem witness_InitFrame :
    after (exec (.init 7#32) State.reset) (fun t => t.eng == .stopped) = true ∧
    after (exec (.init 7#32) (inPhase .wait)) (fun t => t.fault == 0x02#8) = true := by decide

theorem witness_RunStartsTheLoop :
    (live (inPhase .stopped) ∧ live (inPhase .uninit) ∧ live (inPhase .wait) ∧ live (inPhase .sink)) ∧
    admissible faulted = true ∧ faulted.fault ≠ 0x00#8 :=
  ⟨⟨live_inPhase.2.1, live_inPhase.1, live_inPhase.2.2⟩, admissible_faulted⟩

theorem witness_BootOrderStartsTheLoop : admittedConfig (config 4 []) = true := by decide +kernel

theorem witness_PhaseMovesOnlyAsListed :
    after (present 0x4#40 pending) (fun t => t.eng != pending.eng) = true := by decide

theorem witness_StatusAndActiveLayout :
    (1 : Fin 8).val < (config 2 []).channels ∧ (config 2 []).channels ≤ (2 : Fin 8).val := by decide

theorem witness_FlagsChangeOnlyByTheirWriters :
    after (exec .tick (inPhase .wait)) (fun t => t.ready) = true ∧
    after (exec .consume pending) (fun t => !t.ready) = true ∧
    after (exec (.sinkAck false) (inPhase .sink)) (fun t => t.errSink) = true ∧
    after (exec .run { inPhase .stopped with errSink := true }) (fun t => !t.errSink) = true ∧
    after (exec .consume drawingScript) (fun t => (t.chans[3]).active) = true ∧
    after (exec .consume (waiting (config 8 []) 0 1 5 (withChannel 2 true 63 idleAll)))
      (fun t => !(t.chans[2]).active) = true := by decide +kernel

theorem witness_IndexChangesOnlyByTheAdvance :
    after (exec .consume drawingScript) (fun t => (t.chans[3]).widx != (drawingScript.chans[3]).widx) =
      true := by decide +kernel

theorem witness_TickCommutesWithAckAndRun :
    (live (inPhase .sink) ∧ (inPhase .sink).eng = .sink) ∧
    (live (inPhase .stopped) ∧ (inPhase .stopped).eng = .stopped) :=
  ⟨⟨live_inPhase.2.2.2, by decide⟩, ⟨live_inPhase.2.1, by decide⟩⟩

theorem witness_TickWakesTheWaitingEngine : live (inPhase .wait) ∧ (inPhase .wait).eng = .wait :=
  ⟨live_inPhase.2.2.1, by decide⟩

theorem witness_UnansweredWriteHoldsTheEngine : live (inPhase .sink) ∧ (inPhase .sink).eng = .sink :=
  ⟨live_inPhase.2.2.2, by decide⟩

theorem witness_DroppedBoundaryLosesItsCascade :
    live { inPhase .wait with duty := 127 } ∧ (inPhase .wait).eng = .wait ∧
    2 ≤ (inPhase .wait).cfg.pwmResolution ∧ (127 : Nat) = (inPhase .wait).cfg.pwmResolution - 1 :=
  ⟨⟨by decide, by decide⟩, by decide, by decide, by decide⟩

theorem witness_FullCycleTakesLengthAdvances : 1 ≤ (64 : Nat) ∧ (63 : Nat) < 64 := by decide

theorem witness_StepKeepsChannelsIdleOrAnimating :
    channelsIdleOrAnimating drawingScript ∧
    after (step (drawingScript.withFetchWord 40 4)) (fun t => (t.chans[3]).active) = true :=
  ⟨by unfold channelsIdleOrAnimating; decide, by decide +kernel⟩

theorem witness_StepKeepsAtMostOneChannelAnimating :
    drawingScript.cfg.waveformLength - 1 < drawingScript.cfg.prngUpdateCount ∧
    oneChannelAnimates drawingScript ∧
    after (step (drawingScript.withFetchWord 40 4)) (fun t => (t.chans[3]).active) = true :=
  ⟨by decide, by unfold oneChannelAnimates; decide, by decide +kernel⟩

theorem witness_StepKeepsWritesAnswered :
    writesAnswered pending ∧ after (step (pending.withFetchWord 40 4)) (fun t => t.eng == .sink) = true :=
  ⟨by unfold writesAnswered; decide, by decide⟩

theorem witness_ServicedTicksCountPeriods :
    live (inPhase .wait) ∧ (inPhase .wait).eng = .wait ∧ (inPhase .wait).ready = false ∧
    (inPhase .wait).duty = 0 ∧ (inPhase .wait).wuc = 0 ∧ (inPhase .wait).pac = 0 :=
  ⟨live_inPhase.2.2.1, by decide⟩

/-- The start state of program P2. -/
theorem witness_ForcedChannelCompletesAfterTheProduct :
    let s : State := { inPhase .wait with chans := withChannel 0 true 0 idleAll }
    live s ∧ s.eng = .wait ∧ s.ready = false ∧ s.duty = 0 ∧ s.wuc = 0 ∧
    (0 : Fin 8).val < s.cfg.channels ∧ s.chans[(0 : Fin 8)] = ⟨true, 0⟩ ∧
    16383 < s.cfg.waveformLength * (s.cfg.pwmResolution * s.cfg.waveformUpdateCount) :=
  ⟨⟨by decide, by decide⟩, by decide⟩

theorem witness_PeriodIsOnForTheThreshold :
    let s : State := { waiting (config 8 []) 127 0 0 (withChannel 0 true 5 idleAll) with ready := false }
    live s ∧ s.eng = .wait ∧ s.ready = false ∧ s.duty = s.cfg.pwmResolution - 1 :=
  ⟨⟨by decide +kernel, by decide⟩, by decide⟩

theorem witness_TraceTextAssembles :
    (5 : Nat) < 2 ^ 32 ∧ 2 ^ 32 ≤ (2 ^ 32 : Nat) ∧ TraceItem.init (2 ^ 32) ∈ [TraceItem.init (2 ^ 32)] := by
  decide

theorem witness_AssembledWordsAreEvents :
    assemble Config.hardware [.run] = some [0x2#40] ∧ 0x2#40 ∈ [0x2#40] := by decide

end Sys2Proof.Tests
end

section
/-! PROOFS. Where the model gives no meaning (spec/00_scope.md R6, spec/20_memory.md R55). -/

namespace Sys2Proof.Machine

/-- R6: every event makes the configuration check of `enter` first. -/
theorem exec_configNotAdmitted {s : State} (i : Instr) (h : admittedConfig s.cfg = false) :
    exec i s = .refused .configNotAdmitted := by
  obtain ⟨body, hb⟩ := exec_eq_enter i s
  rw [hb, enter_configNotAdmitted h]

/-- R55: every event makes the invariant check of `enter` before its own. -/
theorem exec_stateOutsideInvariants {s : State} (i : Instr) (h : admittedConfig s.cfg = true)
    (hi : ¬ invariantProp s) : exec i s = .refused .stateOutsideInvariants := by
  obtain ⟨body, hb⟩ := exec_eq_enter i s
  rw [hb, enter_stateOutsideInvariants h hi]

/-- R36 (d): the invariants bound every channel's waveform index. -/
theorem invariantProp_widx_lt {s : State} (h : invariantProp s) (k : Fin 8) :
    (s.chans[k]).widx < s.cfg.waveformLength := by
  obtain ⟨-, -, -, hchans, -⟩ := h
  exact (hchans k).1

/-- Settles O11: every event goes through `enter`, and an index of L or more breaks R36 (d). -/
theorem noMeaningOutsideTheInvariants : Obligations.NoMeaningOutsideTheInvariants := by
  refine ⟨fun i s h => exec_configNotAdmitted i h,
    fun i s h hi => exec_stateOutsideInvariants i h hi, fun i s k h hk => ?_⟩
  have hi : ¬ invariantProp s := fun hinv => absurd (invariantProp_widx_lt hinv k) (Nat.not_lt.2 hk)
  exact exec_stateOutsideInvariants i h hi

end Sys2Proof.Machine
end

section
/-! PROOFS. What an event does, over all five events at once: the update it makes, or the fault it records. Each constructor
has its guard, so that a proof about every event is a case analysis on `EventEffect` or on `PresentEffect`. -/

namespace Sys2Proof.Machine

/-- The event is a misuse in the state `s` and raises this code (60_exceptions.md R170). TICK and CONSUME raise none. -/
inductive Raises (s : State) : Instr → FaultCode → Prop where
  | initTwice (seed : Seed) (heng : s.eng ≠ .uninit) : Raises s (.init seed) .initTwice
  | runBeforeInit (heng : s.eng = .uninit) : Raises s .run .runBeforeInit
  | runWhileRunning (heng : s.eng = .wait ∨ s.eng = .sink) : Raises s .run .runWhileRunning
  | spuriousAck (ok : Bool) (heng : s.eng ≠ .sink) : Raises s (.sinkAck ok) .spuriousAck

/-- What an event of a live state `s` leaves (00_scope.md R12). -/
inductive EventEffect (s : State) : Instr → State → Prop where
  | tick : EventEffect s .tick (ticked s)
  | consume (p : PrngState) (heng : s.eng = .wait) (hready : s.ready = true) (hprng : s.prng = some p) :
      EventEffect s .consume (consumed p s)
  | ackOk (heng : s.eng = .sink) : EventEffect s (.sinkAck true) (writeSucceeded s)
  | ackFailed (heng : s.eng = .sink) : EventEffect s (.sinkAck false) (writeFailed s)
  | init (seed : Seed) (heng : s.eng = .uninit) : EventEffect s (.init seed) (initialised seed s)
  | run (heng : s.eng = .stopped) : EventEffect s .run (running s)
  | raised {i : Instr} (code : FaultCode) (hcode : Raises s i code) : EventEffect s i (withFault code s)

/-- What a presented word leaves in a live state `s`: its event's effect, or the fault of a reserved word (R75). -/
inductive PresentEffect (s : State) (w : EventWord) : State → Prop where
  | event {t : State} (i : Instr) (hdec : decode w = .event i) (heff : EventEffect s i t) : PresentEffect s w t
  | reserved (why : Reserved) (hdec : decode w = .reserved why) : PresentEffect s w (withFault .reservedEvent s)

variable {s t : State} {i : Instr} {w : EventWord}

theorem exec_next_effect (h : exec i s = .next t) : EventEffect s i t := by
  cases i with
  | init seed =>
    obtain ⟨-, ⟨he, rfl⟩ | ⟨he, rfl⟩⟩ := (exec_init_iff seed).1 h
    · exact .raised _ (.initTwice seed he)
    · exact .init seed he
  | run =>
    obtain ⟨-, ⟨he, rfl⟩ | ⟨he, rfl⟩ | ⟨he, rfl⟩⟩ := exec_run_iff.1 h
    · exact .raised _ (.runBeforeInit he)
    · exact .raised _ (.runWhileRunning he)
    · exact .run he
  | tick =>
    obtain ⟨-, rfl⟩ := exec_tick_iff.1 h
    exact .tick
  | consume =>
    obtain ⟨⟨-, he, hr⟩, p, hp, rfl⟩ := exec_consume_iff.1 h
    exact .consume p he hr hp
  | sinkAck ok =>
    obtain ⟨-, ⟨he, rfl⟩ | ⟨he, rfl, rfl⟩ | ⟨he, rfl, rfl⟩⟩ := (exec_sinkAck_iff ok).1 h
    · exact .raised _ (.spuriousAck ok he)
    · exact .ackOk he
    · exact .ackFailed he

theorem present_next_effect (h : present w s = .next t) : PresentEffect s w t := by
  rcases present_next_cases h with ⟨i, hd, hi⟩ | ⟨⟨why, hd⟩, -, rfl⟩
  · exact .event i hd (exec_next_effect hi)
  · exact .reserved why hd

/-- R35: no update writes the configuration. -/
theorem EventEffect.cfg_eq (h : EventEffect s i t) : t.cfg = s.cfg := by
  cases h <;> rfl

/-- Log entry 2: no update touches the words that wait. -/
theorem EventEffect.events_eq (h : EventEffect s i t) : t.events = s.events := by
  cases h <;> rfl

theorem PresentEffect.cfg_eq (h : PresentEffect s w t) : t.cfg = s.cfg := by
  cases h with
  | event i _ heff => exact heff.cfg_eq
  | reserved => exact withFault_cfg _ s

theorem PresentEffect.events_eq (h : PresentEffect s w t) : t.events = s.events := by
  cases h with
  | event i _ heff => exact heff.events_eq
  | reserved => exact withFault_events _ s

end Sys2Proof.Machine
end

section
/-! PROOFS. The invariants (a) to (h) of spec/10_state.md R36: they hold at reset, and every update keeps them. -/

namespace Sys2Proof.Machine

/-! ### One entry of the per-channel file -/

section Channels

variable {c : Config} {i : Nat} {ch : Channel}

theorem channelOk_idle (hlen : 0 < c.waveformLength) : channelOk c i Channel.idle :=
  ⟨hlen, fun _ => rfl, fun _ => rfl⟩

theorem channelOk_setActive (h : channelOk c i ch) (hi : i < c.channels) :
    channelOk c i { ch with active := true } :=
  ⟨h.1, nofun, fun hn => absurd hi (Nat.not_lt.2 hn)⟩

/-- An advance wraps the index below L, and the channel that stops being active is at index 0 (R120, R121). -/
theorem channelOk_advance (hlen : 0 < c.waveformLength) (h : channelOk c i ch) (hi : i < c.channels) :
    channelOk c i (ch.advance c.waveformLength) := by
  obtain ⟨_ | _, k⟩ := ch
  · exact h
  · rw [advance_active]
    exact ⟨wrapInc_lt k hlen, by simp, fun hn => absurd hi (Nat.not_lt.2 hn)⟩

end Channels

theorem activated_channelOk {s : State} {i : Nat} (p : PrngState) (hi : i < 8)
    (h : channelOk s.cfg i s.chans[i]) : channelOk s.cfg i (activated s p i hi) := by
  unfold activated
  split
  next hsel => exact channelOk_setActive h hsel.2.2
  next => exact h

theorem channelsAfter_channelOk {s : State} {i : Nat} (p : PrngState) (hi : i < 8)
    (hlen : 0 < s.cfg.waveformLength) (h : channelOk s.cfg i s.chans[i]) :
    channelOk s.cfg i (channelsAfter s p).1[i] := by
  rw [channelsAfter_get]
  split
  next hadv => exact channelOk_advance hlen (activated_channelOk p hi h) hadv.2
  next => exact activated_channelOk p hi h

/-! ### The counters and the output byte -/

section Counters

variable {c : Config} (snap : Nat) {wuc pac : Nat}

theorem cascade_wuc_lt (h : wuc < c.waveformUpdateCount) :
    (cascade c snap wuc pac).wuc < c.waveformUpdateCount := by
  have hpos : 0 < c.waveformUpdateCount := Nat.zero_lt_of_lt h
  rcases cascade_cases c snap wuc pac with ⟨-, e⟩ | ⟨-, -, e⟩ | ⟨-, -, e⟩ <;> rw [e]
  · exact h
  · exact wrapInc_lt wuc hpos
  · exact hpos

theorem cascade_pac_lt (h : pac < c.prngUpdateCount) :
    (cascade c snap wuc pac).pac < c.prngUpdateCount := by
  rcases cascade_cases c snap wuc pac with ⟨-, e⟩ | ⟨-, -, e⟩ | ⟨-, -, e⟩ <;> rw [e]
  · exact h
  · exact h
  · exact wrapInc_lt pac (Nat.zero_lt_of_lt h)

/-- D7: an absent channel's bit of the composed byte is 0. -/
theorem compose_getLsbD_absent (chans : Vector Channel 8) (i : Fin 8) (h : c.channels ≤ i.val) :
    (compose c snap chans).getLsbD i.val = false := by
  rw [compose_getLsbD, channelBit, decide_eq_false (Nat.not_lt.2 h), Bool.false_and]

end Counters

/-- R32: no code sets one of the reserved bits of FAULT. -/
theorem setFaultBit_reservedBits {f : Byte} (code : FaultCode) (h : f &&& 0xE0#8 = 0x00#8) :
    setFaultBit f code &&& 0xE0#8 = 0x00#8 := by
  have hbit : (1#8 <<< code.bit) &&& 0xE0#8 = 0x00#8 := by cases code <;> decide
  rw [setFaultBit, BitVec.and_or_distrib_right, h, hbit, BitVec.or_zero]

/-! ### Reset and the updates -/

theorem invariantProp_resetWith {c : Config} (h : admittedConfig c = true) :
    invariantProp (State.resetWith c) := by
  refine ⟨admittedConfig_pwmResolution_pos h, admittedConfig_waveformUpdateCount_pos h,
    admittedConfig_prngUpdateCount_pos h, fun i => ?_, fun i _ => BitVec.getLsbD_zero,
    iff_of_true rfl rfl, BitVec.zero_and⟩
  rw [State.resetWith, replicate_get]
  exact channelOk_idle (admittedConfig_waveformLength_pos h)

section Updates

variable {s t : State} {i : Instr} {w : EventWord}

theorem invariantProp_ticked (hcfg : admittedConfig s.cfg = true) (h : invariantProp s) :
    invariantProp (ticked s) := by
  obtain ⟨-, hrest⟩ := h
  exact ⟨wrapInc_lt s.duty (admittedConfig_pwmResolution_pos hcfg), hrest⟩

theorem invariantProp_consumed {p : PrngState} (hcfg : admittedConfig s.cfg = true)
    (h : invariantProp s) : invariantProp (consumed p s) := by
  obtain ⟨hduty, hwuc, hpac, hchans, -, -, hfault⟩ := h
  have hlen := admittedConfig_waveformLength_pos hcfg
  exact ⟨hduty, cascade_wuc_lt _ hwuc, cascade_pac_lt _ hpac,
    fun k => channelsAfter_channelOk p k.isLt hlen (hchans k),
    fun k hk => compose_getLsbD_absent _ _ k hk, iff_of_false nofun nofun, hfault⟩

theorem invariantProp_initialised (seed : Seed) (hcfg : admittedConfig s.cfg = true)
    (h : invariantProp s) : invariantProp (initialised seed s) := by
  obtain ⟨hduty, hwuc, hpac, hchans, hout, -, -⟩ := invariantProp_resetWith hcfg
  obtain ⟨-, -, -, -, -, -, hfault⟩ := h
  exact ⟨hduty, hwuc, hpac, hchans, hout, iff_of_false nofun nofun, hfault⟩

/-- Of ENG the invariants ask only (g), that it is UNINIT while the PRNG is unseeded. -/
theorem invariantProp_withPhase {eng : Phase} (errSink : Bool) (obs : List Obs) (h : invariantProp s)
    (hs : s.eng ≠ .uninit) (ht : eng ≠ .uninit) :
    invariantProp { s with eng := eng, errSink := errSink, obs := obs } := by
  obtain ⟨hduty, hwuc, hpac, hchans, hout, hprng, hfault⟩ := h
  exact ⟨hduty, hwuc, hpac, hchans, hout, iff_of_false (mt hprng.1 hs) ht, hfault⟩

theorem invariantProp_withFault (code : FaultCode) (h : invariantProp s) :
    invariantProp (withFault code s) := by
  obtain ⟨hduty, hwuc, hpac, hchans, hout, hprng, hfault⟩ := h
  exact ⟨hduty, hwuc, hpac, hchans, hout, hprng, setFaultBit_reservedBits code hfault⟩

theorem EventEffect.invariantProp_next (heff : EventEffect s i t) (hcfg : admittedConfig s.cfg = true)
    (h : invariantProp s) : invariantProp t := by
  cases heff with
  | tick => exact invariantProp_ticked hcfg h
  | consume p => exact invariantProp_consumed hcfg h
  | ackOk heng => exact invariantProp_withPhase _ _ h (by simp [heng]) nofun
  | ackFailed heng => exact invariantProp_withPhase _ _ h (by simp [heng]) nofun
  | init seed => exact invariantProp_initialised seed hcfg h
  | run heng => exact invariantProp_withPhase _ _ h (by simp [heng]) nofun
  | raised code => exact invariantProp_withFault code h

theorem PresentEffect.invariantProp_next (heff : PresentEffect s w t) (hcfg : admittedConfig s.cfg = true)
    (h : invariantProp s) : invariantProp t := by
  cases heff with
  | event i _ heff => exact heff.invariantProp_next hcfg h
  | reserved => exact invariantProp_withFault _ h

end Updates

/-! ### The obligations -/

/-- Settles O10: a step presents the oldest word to the state without it, which no invariant reads, and what the word
leaves keeps the invariants. -/
theorem stepKeepsTheInvariants : Obligations.StepKeepsTheInvariants := by
  intro s t hcfg hinv hstep
  obtain ⟨w, rest, -, hw⟩ := step_next_cases hstep
  have heff : PresentEffect (withEvents rest s) w t := present_next_effect hw
  have hcfg' : t.cfg = s.cfg := heff.cfg_eq
  exact ⟨hcfg' ▸ hcfg, heff.invariantProp_next hcfg hinv⟩

/-- Settles O9: the parameters are positive, and every other reset value is 0 or unseeded. -/
theorem resetSatisfiesTheInvariants : Obligations.ResetSatisfiesTheInvariants :=
  ⟨fun _ h => invariantProp_resetWith h,
    (admissible_iff _).2 ⟨admittedConfig_hardware, invariantProp_resetWith admittedConfig_hardware⟩⟩

end Sys2Proof.Machine
end

section
/-! PROOFS. What events leave unchanged (spec/10_state.md R35, R40). -/

namespace Sys2Proof.Machine

/-- Settles O12: every update keeps the configuration, which holds the ROM, and the words that wait. -/
theorem eventsKeepConfigurationAndRom : Obligations.EventsKeepConfigurationAndRom := by
  intro w s t h
  have heff : PresentEffect s w t := present_next_effect h
  have hcfg : t.cfg = s.cfg := heff.cfg_eq
  exact ⟨hcfg, heff.events_eq, memWf_congr hcfg, fun k => by rw [hcfg]⟩

theorem agentOf_eq_tickHandler_iff (i : Instr) : agentOf i = .tickHandler ↔ i = .tick := by
  cases i <;> simp [agentOf]

/-- R40: DUTY is written by TICK and by INIT only. -/
theorem EventEffect.duty_eq {s t : State} {i : Instr} (h : EventEffect s i t) (htick : i ≠ .tick)
    (hinit : ∀ seed, i ≠ .init seed) : t.duty = s.duty := by
  cases h with
  | tick => exact absurd rfl htick
  | init seed => exact absurd rfl (hinit seed)
  | consume p => exact consumed_duty p s
  | ackOk => exact writeSucceeded_duty s
  | ackFailed => exact writeFailed_duty s
  | run => exact running_duty s
  | raised code => exact withFault_duty code s

/-- Settles O21: the Tick Handler's one event leaves `ticked s`, and the other agents' updates but INIT's keep DUTY. -/
theorem tickWritesOnlyTheSharedState : Obligations.TickWritesOnlyTheSharedState := by
  refine ⟨fun i s t hi hinit h => ?_, fun i s t hi h => ?_⟩
  · exact (exec_next_effect h).duty_eq (mt (agentOf_eq_tickHandler_iff i).2 hi) hinit
  · obtain rfl := (agentOf_eq_tickHandler_iff i).1 hi
    obtain ⟨-, rfl⟩ := exec_tick_iff.1 h
    simp

end Sys2Proof.Machine
end

section
/-! PROOFS. The engine phase and the packed registers STATUS and ACTIVE (spec/10_state.md R30, R34). -/

namespace Sys2Proof.Machine

theorem statusByte_toNat (s : State) :
    (statusByte s).toNat = 4 * s.errSink.toNat + s.eng.code.toNat := by
  unfold statusByte
  cases s.errSink <;> cases s.eng <;> rfl

theorem statusByte_getLsbD_two (s : State) : (statusByte s).getLsbD 2 = s.errSink := by
  unfold statusByte
  cases s.errSink <;> cases s.eng <;> rfl

/-- R30: the five moves of the phase, by the event that makes them. A fault moves nothing. -/
theorem EventEffect.eng_moves {s t : State} {i : Instr} (h : EventEffect s i t) (hne : t.eng ≠ s.eng) :
    (s.eng = .uninit ∧ t.eng = .stopped ∧ ∃ seed, i = .init seed) ∨
    (s.eng = .stopped ∧ t.eng = .wait ∧ i = .run) ∨
    (s.eng = .wait ∧ t.eng = .sink ∧ i = .consume) ∨
    (s.eng = .sink ∧ t.eng = .wait ∧ i = .sinkAck true) ∨
    (s.eng = .sink ∧ t.eng = .stopped ∧ i = .sinkAck false) := by
  cases h with
  | tick => exact absurd (ticked_eng s) hne
  | consume p heng => simp [heng]
  | ackOk heng => simp [heng]
  | ackFailed heng => simp [heng]
  | init seed heng => simp [heng]
  | run heng => simp [heng]
  | raised code => exact absurd (withFault_eng code s) hne

/-- Settles O42: STATUS[1:0] is the phase's code, and an update that moves the phase is one of the five. -/
theorem phaseMovesOnlyAsListed : Obligations.PhaseMovesOnlyAsListed := by
  refine ⟨fun s => ?_, fun w s t h hne => ?_⟩
  · rw [statusByte_toNat, Nat.mul_add_mod]
    cases s.eng <;> rfl
  · cases present_next_effect h with
    | event i hdec heff => simpa [hdec] using heff.eng_moves hne
    | reserved => exact absurd (withFault_eng _ s) hne

theorem activeByte_getLsbD (s : State) (i : Fin 8) :
    (activeByte s).getLsbD i.val = (readChannel s.cfg s.chans i).active :=
  packBits_getLsbD _ i

theorem readChannel_present {c : Config} (chans : Vector Channel 8) {i : Fin 8} (h : i.val < c.channels) :
    readChannel c chans i = chans[i] := if_pos h

theorem readChannel_absent {c : Config} (chans : Vector Channel 8) {i : Fin 8} (h : c.channels ≤ i.val) :
    readChannel c chans i = Channel.idle := if_neg (Nat.not_lt.2 h)

/-- Settles O43: STATUS is ERR_SINK above the two bits of the phase, and ACTIVE packs the channels as they read. -/
theorem statusAndActiveLayout : Obligations.StatusAndActiveLayout := by
  refine ⟨fun s => ⟨statusByte_getLsbD_two s, ?_⟩, fun s i h => ?_, fun s i h => ?_⟩
  · have herr : s.errSink.toNat ≤ 1 := Bool.toNat_le s.errSink
    have hcode : s.eng.code.toNat < 4 := s.eng.code.isLt
    rw [statusByte_toNat]
    omega
  · rw [activeByte_getLsbD, readChannel_present _ h]
  · rw [activeByte_getLsbD, readChannel_absent _ h, Channel.idle]

end Sys2Proof.Machine
end

section
/-! PROOFS. Who writes the flags and the waveform indices (spec/10_state.md R27, R37). -/

namespace Sys2Proof.Machine

variable {s t : State} {i : Instr}

/-! ### The writers of each element -/

theorem EventEffect.ready_cases (h : EventEffect s i t) :
    t.ready = s.ready ∨ (i = .tick ∧ t.ready = true) ∨
    ((i = .consume ∨ ∃ seed, i = .init seed) ∧ t.ready = false) := by
  cases h with
  | tick => exact .inr (.inl ⟨rfl, ticked_ready s⟩)
  | consume p => exact .inr (.inr ⟨.inl rfl, consumed_ready p s⟩)
  | init seed => exact .inr (.inr ⟨.inr ⟨seed, rfl⟩, initialised_ready seed s⟩)
  | ackOk => exact .inl (writeSucceeded_ready s)
  | ackFailed => exact .inl (writeFailed_ready s)
  | run => exact .inl (running_ready s)
  | raised code => exact .inl (withFault_ready code s)

theorem EventEffect.errSink_cases (h : EventEffect s i t) :
    t.errSink = s.errSink ∨ (i = .sinkAck false ∧ t.errSink = true) ∨
    ((i = .run ∨ ∃ seed, i = .init seed) ∧ t.errSink = false) := by
  cases h with
  | ackFailed => exact .inr (.inl ⟨rfl, writeFailed_errSink s⟩)
  | run => exact .inr (.inr ⟨.inl rfl, running_errSink s⟩)
  | init seed => exact .inr (.inr ⟨.inr ⟨seed, rfl⟩, initialised_errSink seed s⟩)
  | tick => exact .inl (ticked_errSink s)
  | consume p => exact .inl (consumed_errSink p s)
  | ackOk => exact .inl (writeSucceeded_errSink s)
  | raised code => exact .inl (withFault_errSink code s)

/-- The per-channel file is written by INIT and CONSUME only. -/
theorem EventEffect.chans_cases (h : EventEffect s i t) :
    t.chans = s.chans ∨ ((∃ seed, i = .init seed) ∧ t.chans = Vector.replicate 8 Channel.idle) ∨
    (i = .consume ∧ ∃ p, t.chans = (channelsAfter s p).1) := by
  cases h with
  | init seed => exact .inr (.inl ⟨⟨seed, rfl⟩, initialised_chans seed s⟩)
  | consume p => exact .inr (.inr ⟨rfl, p, consumed_chans p s⟩)
  | tick => exact .inl (ticked_chans s)
  | ackOk => exact .inl (writeSucceeded_chans s)
  | ackFailed => exact .inl (writeFailed_chans s)
  | run => exact .inl (running_chans s)
  | raised code => exact .inl (withFault_chans code s)

theorem EventEffect.active_cases (h : EventEffect s i t) (k : Fin 8) :
    (t.chans[k]).active = (s.chans[k]).active ∨ (i = .consume ∧ (t.chans[k]).active = true) ∨
    ((i = .consume ∨ ∃ seed, i = .init seed) ∧ (t.chans[k]).active = false) := by
  rcases h.chans_cases with e | ⟨hinit, e⟩ | ⟨hconsume, -⟩
  · exact .inl (by rw [e])
  · exact .inr (.inr ⟨.inr hinit, by rw [e, replicate_get, Channel.idle]⟩)
  · cases (t.chans[k]).active
    · exact .inr (.inr ⟨.inl hconsume, rfl⟩)
    · exact .inr (.inl ⟨hconsume, rfl⟩)

/-- A flag that is kept, set where `R` holds or cleared where `F` holds rises under `R` only and falls under `F` only. -/
theorem flag_rises_and_falls {before after : Bool} {R F : Prop}
    (h : after = before ∨ (R ∧ after = true) ∨ (F ∧ after = false)) :
    (before = false → after = true → R) ∧ (before = true → after = false → F) := by
  rcases h with rfl | ⟨hR, rfl⟩ | ⟨hF, rfl⟩
  · cases after <;> simp
  · exact ⟨fun _ _ => hR, nofun⟩
  · exact ⟨nofun, fun _ _ => hF⟩

/-- Settles O44: each flag is kept, set or cleared, and the events that set or clear it are the writers listed. -/
theorem flagsChangeOnlyByTheirWriters : Obligations.FlagsChangeOnlyByTheirWriters := by
  intro i s t h
  have heff : EventEffect s i t := exec_next_effect h
  obtain ⟨hreadyRises, hreadyFalls⟩ := flag_rises_and_falls heff.ready_cases
  obtain ⟨herrRises, herrFalls⟩ := flag_rises_and_falls heff.errSink_cases
  exact ⟨hreadyRises, hreadyFalls, herrRises, herrFalls,
    fun k => flag_rises_and_falls (heff.active_cases k)⟩

/-! ### The waveform advance -/

/-- R120, R121: an advance that changes the index wraps it modulo L, and it is 0 exactly when the channel completes. -/
theorem advance_widx_changed {len : Nat} {ch : Channel} (h : (ch.advance len).widx ≠ ch.widx) :
    (ch.advance len).widx = (ch.widx + 1) % len ∧
    ((ch.advance len).active = false ↔ (ch.advance len).widx = 0) := by
  obtain ⟨_ | _, k⟩ := ch
  · exact absurd rfl h
  · simp [advance_active]

@[simp] theorem activated_widx (s : State) (p : PrngState) (k : Nat) (hk : k < 8) :
    (activated s p k hk).widx = (s.chans[k]).widx := by
  unfold activated
  split <;> rfl

/-- R27: the one change of an index that a CONSUME makes. -/
theorem channelsAfter_widx_changed {p : PrngState} {k : Fin 8}
    (h : ((channelsAfter s p).1[k]).widx ≠ (s.chans[k]).widx) :
    atUpdate s ∧ ((channelsAfter s p).1[k]).widx = ((s.chans[k]).widx + 1) % s.cfg.waveformLength ∧
    (((channelsAfter s p).1[k]).active = false ↔ ((channelsAfter s p).1[k]).widx = 0) := by
  have hget : (channelsAfter s p).1[k] = _ := channelsAfter_get s p k.val k.isLt
  have hwidx : (activated s p k.val k.isLt).widx = (s.chans[k]).widx := activated_widx s p k.val k.isLt
  rw [hget, ← hwidx] at h ⊢
  split at h
  next hadv =>
    rw [if_pos hadv]
    exact ⟨(cascade_wu_iff s).1 hadv.1, advance_widx_changed h⟩
  next => exact absurd rfl h

/-- Settles O45: only INIT and CONSUME write the per-channel file, INIT with idle channels and CONSUME by the advance. -/
theorem indexChangesOnlyByTheAdvance : Obligations.IndexChangesOnlyByTheAdvance := by
  intro i s t k h hne
  rcases (exec_next_effect h).chans_cases with e | ⟨hinit, e⟩ | ⟨hconsume, p, e⟩
  · exact absurd (by rw [e]) hne
  · exact .inl ⟨hinit, by rw [e, replicate_get, Channel.idle]⟩
  · rw [e] at hne ⊢
    exact .inr ⟨hconsume, channelsAfter_widx_changed hne⟩

end Sys2Proof.Machine
end

section
/-! PROOFS. The writes and their answers in the observation alternate (spec/20_memory.md R59, spec/60_exceptions.md R190;
log entry 13). -/

namespace Sys2Proof.Machine

/-- What is outstanding after two stretches of the observation is what the second leaves of what the first left. -/
theorem outstanding_append (pending : Bool) (xs ys : List Obs) :
    outstanding pending (xs ++ ys) = (outstanding pending xs).bind fun mid => outstanding mid ys := by
  induction xs generalizing pending with
  | nil => rfl
  | cons o xs ih => cases o <;> cases pending <;> simp [outstanding, ih]

variable {s t : State} {i : Instr} {w : EventWord}

/-- Where writes and answers alternate, one observation more leaves outstanding what it makes of the state's phase. -/
theorem writesAnswered.outstanding_snoc (h : writesAnswered s) (o : Obs) :
    outstanding false (s.obs ++ [o]) = outstanding (s.eng == .sink) [o] := by
  rw [outstanding_append, h, Option.bind_some]

/-- R126, R140: a write is issued in WAIT only and answered in SINK only. -/
theorem EventEffect.writesAnswered_next (heff : EventEffect s i t) (h : writesAnswered s) :
    writesAnswered t := by
  cases heff with
  | tick => exact h
  | consume p heng =>
    rw [writesAnswered, consumed_obs, h.outstanding_snoc, heng]
    rfl
  | ackOk heng =>
    rw [writesAnswered, writeSucceeded_obs, h.outstanding_snoc, heng]
    rfl
  | ackFailed heng =>
    rw [writesAnswered, writeFailed_obs, h.outstanding_snoc, heng]
    rfl
  | init seed heng =>
    rw [writesAnswered, initialised_obs, h.outstanding_snoc, heng]
    rfl
  | run heng =>
    rw [writesAnswered, heng] at h
    exact h
  | raised code => exact h

theorem PresentEffect.writesAnswered_next (heff : PresentEffect s w t) (h : writesAnswered s) :
    writesAnswered t := by
  cases heff with
  | event i _ heff => exact heff.writesAnswered_next h
  | reserved => exact h

/-- Settles O53: the words that wait are not observed, and what the oldest leaves keeps the alternation. -/
theorem stepKeepsWritesAnswered : Obligations.StepKeepsWritesAnswered := by
  intro s t h hstep
  obtain ⟨w, rest, -, hw⟩ := step_next_cases hstep
  have hwait : writesAnswered (withEvents rest s) := h
  exact (present_next_effect hw).writesAnswered_next hwait

end Sys2Proof.Machine
end

section
/-! PROOFS. The words that wait are run in their order (spec/20_memory.md R61; log entry 2). No meaning reads them, so what a
word does is the same whatever waits behind it. -/

namespace Sys2Proof.Machine

variable {s t : State} {i : Instr} {w : EventWord}

/-- Each effect of a live state is one that its event has. -/
theorem EventEffect.exec_next (heff : EventEffect s i t) (h : live s) : exec i s = .next t := by
  cases heff with
  | tick => exact exec_tick_live h
  | consume p heng hready hprng => exact exec_consume_iff.2 ⟨⟨h, heng, hready⟩, p, hprng, rfl⟩
  | ackOk heng => exact (exec_sinkAck_iff true).2 ⟨h, .inr (.inl ⟨heng, rfl, rfl⟩)⟩
  | ackFailed heng => exact (exec_sinkAck_iff false).2 ⟨h, .inr (.inr ⟨heng, rfl, rfl⟩)⟩
  | init seed heng => exact (exec_init_iff seed).2 ⟨h, .inr ⟨heng, rfl⟩⟩
  | run heng => exact exec_run_iff.2 ⟨h, .inr (.inr ⟨heng, rfl⟩)⟩
  | raised code hcode =>
    cases hcode with
    | initTwice seed heng => exact (exec_init_iff seed).2 ⟨h, .inl ⟨heng, rfl⟩⟩
    | runBeforeInit heng => exact exec_run_iff.2 ⟨h, .inl ⟨heng, rfl⟩⟩
    | runWhileRunning heng => exact exec_run_iff.2 ⟨h, .inr (.inl ⟨heng, rfl⟩)⟩
    | spuriousAck ok heng => exact (exec_sinkAck_iff ok).2 ⟨h, .inl ⟨heng, rfl⟩⟩

theorem PresentEffect.present_next (heff : PresentEffect s w t) (h : live s) :
    present w s = .next t := by
  cases heff with
  | event i hdec heff => rw [present_event hdec, heff.exec_next h]
  | reserved why hdec => rw [present_reserved hdec, reservedWord_iff.2 ⟨h, rfl⟩]

theorem Raises.withEvents {code : FaultCode} (h : Raises s i code) (ws : List EventWord) :
    Raises (withEvents ws s) i code := by
  cases h with
  | initTwice seed heng => exact .initTwice seed heng
  | runBeforeInit heng => exact .runBeforeInit heng
  | runWhileRunning heng => exact .runWhileRunning heng
  | spuriousAck ok heng => exact .spuriousAck ok heng

theorem EventEffect.withEvents (h : EventEffect s i t) (ws : List EventWord) :
    EventEffect (withEvents ws s) i (withEvents ws t) := by
  cases h with
  | tick => exact .tick
  | consume p heng hready hprng => exact .consume p heng hready hprng
  | ackOk heng => exact .ackOk heng
  | ackFailed heng => exact .ackFailed heng
  | init seed heng => exact .init seed heng
  | run heng => exact .run heng
  | raised code hcode => exact .raised code (hcode.withEvents ws)

theorem PresentEffect.withEvents (h : PresentEffect s w t) (ws : List EventWord) :
    PresentEffect (withEvents ws s) w (withEvents ws t) := by
  cases h with
  | event i hdec heff => exact .event i hdec (heff.withEvents ws)
  | reserved why hdec => exact .reserved why hdec

/-- Presenting a word neither reads nor writes the words that wait. -/
theorem present_withEvents (h : present w s = .next t) (ws : List EventWord) :
    present w (withEvents ws s) = .next (withEvents ws t) :=
  ((present_next_effect h).withEvents ws).present_next
    ((live_withEvents ws s).2 (present_next_live h))

theorem runWords_cons_next {ws : List EventWord} (h : runWords (w :: ws) s = .next t) :
    ∃ u, present w s = .next u ∧ runWords ws u = .next t := by
  rw [runWords] at h
  cases hp : present w s with
  | next u => exact ⟨u, rfl, by rwa [hp] at h⟩
  | fault f => rw [hp] at h; cases h
  | refused r => rw [hp] at h; cases h

theorem run_succ_of_step {M : Host.Core} {s t : M.State} (n : Nat) (h : M.step s = .next t) :
    M.run (n + 1) s = M.run n t := by
  rw [Host.Core.run, h]

/-- The queue run, with the state's own queue as the words that stay. -/
theorem core_run_withEvents {ws : List EventWord} (h : runWords ws s = .next t) :
    core.run ws.length (withEvents (ws ++ s.events) s) = .next t := by
  induction ws generalizing s with
  | nil => exact h
  | cons w ws ih =>
    obtain ⟨u, hw, hws⟩ := runWords_cons_next h
    have hstep : step (withEvents (w :: ws ++ s.events) s) = .next (withEvents (ws ++ s.events) u) :=
      (step_cons rfl).trans (present_withEvents hw _)
    have hrest : core.run ws.length (withEvents (ws ++ s.events) u) = .next t := by
      rw [← (present_next_effect hw).events_eq]
      exact ih hws
    exact (run_succ_of_step ws.length hstep).trans hrest

/-- Settles O7: the queue run from the state in which `rest` waits. -/
theorem queueIsRunInOrder : Obligations.QueueIsRunInOrder := by
  intro ws rest s t h
  exact core_run_withEvents h

end Sys2Proof.Machine
end

section
/-! PROOFS. The limits of the waveform ROM (spec/20_memory.md R51), and what they say of a channel at index 0. -/

namespace Sys2Proof.Machine

variable {c : Config}

theorem admittedConfig_waveAdmitted (h : admittedConfig c = true) : waveAdmitted c = true := by
  obtain ⟨-, -, -, -, -, -, -, -, hwave⟩ := (admittedConfig_iff c).1 h
  exact hwave

theorem unlistedEntry_le (c : Config) (k : Nat) : unlistedEntry c k ≤ c.pwmResolution := by
  unfold unlistedEntry
  split
  · exact Nat.zero_le _
  · exact Nat.min_le_right _ _

/-- What a ROM read answers: the entry listed at the index, or the unlisted one. -/
theorem memRead_cases (c : Config) (k : Nat) :
    (∃ b, (k, b) ∈ c.wave ∧ memRead c k = b.toNat) ∨ memRead c k = unlistedEntry c k := by
  unfold memRead
  cases hk : memLookup c.wave k with
  | some b => exact .inl ⟨b, memLookup_mem hk, rfl⟩
  | none => exact .inr rfl

/-- R51 (a). -/
theorem memRead_le (h : admittedConfig c = true) (k : Nat) : memRead c k ≤ c.pwmResolution := by
  rcases memRead_cases c k with ⟨b, hmem, hread⟩ | hread <;> rw [hread]
  · obtain ⟨-, hle, -⟩ := waveAdmitted_mem (admittedConfig_waveAdmitted h) hmem
    exact hle
  · exact unlistedEntry_le c k

/-- R51 (b). -/
theorem memRead_zero (h : admittedConfig c = true) : memRead c 0 = 0 := by
  rcases memRead_cases c 0 with ⟨b, hmem, hread⟩ | hread <;> rw [hread]
  · obtain ⟨-, -, hzero⟩ := waveAdmitted_mem (admittedConfig_waveAdmitted h) hmem
    rw [hzero rfl]
    rfl
  · exact unlistedEntry_zero c

/-- Settles O13: a read is a listed entry, which the admission checks, or an unlisted one, which is within the limits. -/
theorem romIsWithinItsLimits : Obligations.RomIsWithinItsLimits := by
  refine ⟨fun c h => ⟨memRead_zero h, memRead_le h⟩, fun c k b hmem hbreak => ?_⟩
  rw [← Bool.not_eq_true]
  intro h
  obtain ⟨-, hle, hzero⟩ := waveAdmitted_mem (admittedConfig_waveAdmitted h) hmem
  rcases hbreak with hgt | ⟨hk, hb⟩
  · exact absurd hle (Nat.not_le.2 hgt)
  · exact hb (hzero hk)

/-- R123: no snapshot is below the threshold W[0] = 0. -/
theorem channelBit_of_widx_zero {chans : Vector Channel 8} {i : Fin 8} (snap : Nat)
    (h : admittedConfig c = true) (hidx : (chans[i]).widx = 0) : channelBit c snap chans i = false := by
  rw [channelBit, hidx, memRead_zero h, brightnessBit, decide_eq_false (Nat.not_lt_zero snap),
    Bool.and_false]

/-- Settles O30: the state CONSUME leaves meets R36 (e), so a channel not active in it is at index 0, where its output bit
is 0. -/
theorem inactiveChannelIsOff : Obligations.InactiveChannelIsOff := by
  intro s t i hcan h hoff
  obtain ⟨hlive, -⟩ := hcan
  obtain ⟨hcfg, hinv, -⟩ := (live_iff s).1 hlive
  obtain ⟨-, -, -, hchans, -⟩ := (exec_next_effect h).invariantProp_next hcfg hinv
  obtain ⟨-, hindex, -⟩ := hchans i
  have hwidx : (t.chans[i]).widx = 0 := hindex hoff
  obtain ⟨-, p, -, rfl⟩ := exec_consume_iff.1 h
  rw [consumed_out, compose_getLsbD]
  exact channelBit_of_widx_zero s.duty hcfg hwidx

end Sys2Proof.Machine
end

section
/-! PROOFS. The event word as its three fields (spec/30_encoding.md R71, R72): each field as a number, the cases of the
decoder, and the one word that each event has. -/

namespace Sys2Proof

/-- OP of an event's words (R73). -/
def Instr.op : Instr → BitVec 4
  | .init _ => 0x1#4
  | .run => 0x2#4
  | .tick => 0x3#4
  | .consume => 0x4#4
  | .sinkAck _ => 0x5#4

/-- PAYLOAD of an event's word: the seed, `ok` in bit 0, or 0 (R72, R74). -/
def Instr.payload : Instr → BitVec 32
  | .init seed => seed
  | .run => 0#32
  | .tick => 0#32
  | .consume => 0#32
  | .sinkAck ok => (BitVec.ofBool ok).zeroExtend 32

variable {w : EventWord} {i : Instr}

/-! ### The fields as numbers -/

theorem fieldOp_toNat (w : EventWord) : (fieldOp w).toNat = w.toNat % 16 := by
  simp [fieldOp]

theorem fieldRsv_toNat (w : EventWord) : (fieldRsv w).toNat = w.toNat / 16 % 16 := by
  simp [fieldRsv, Nat.shiftRight_eq_div_pow]

theorem fieldPayload_toNat (w : EventWord) : (fieldPayload w).toNat = w.toNat / 256 := by
  have hw : w.toNat / 256 < 2 ^ 32 := by omega
  simpa [fieldPayload, Nat.shiftRight_eq_div_pow] using hw

theorem fieldAckMbz_toNat (w : EventWord) : (fieldAckMbz w).toNat = w.toNat / 512 := by
  have hw : w.toNat / 512 < 2 ^ 31 := by omega
  simpa [fieldAckMbz, Nat.shiftRight_eq_div_pow] using hw

theorem fieldOk_toNat (w : EventWord) : (fieldOk w).toNat = w.toNat / 256 % 2 := by
  rw [fieldOk, BitVec.getLsbD, Nat.toNat_testBit]

theorem payload_sinkAck_toNat (ok : Bool) : (Instr.sinkAck ok).payload.toNat = ok.toNat := by
  cases ok <;> rfl

/-- R71 to R73: the encoder's word is PAYLOAD over a zero RSV over OP. -/
theorem encode_toNat (i : Instr) : (encode i).toNat = i.payload.toNat * 256 + i.op.toNat := by
  cases i with
  | init seed =>
    rw [encode, BitVec.toNat_append, ← Nat.shiftLeft_add_eq_or_of_lt (BitVec.isLt _), Nat.shiftLeft_eq]
    rfl
  | run => rfl
  | tick => rfl
  | consume => rfl
  | sinkAck ok => cases ok <;> rfl

/-- R71: the three fields are the whole word, so a word is an event's exactly where they are the event's. -/
theorem encode_eq_iff_fields :
    encode i = w ↔ fieldRsv w = 0#4 ∧ fieldOp w = i.op ∧ fieldPayload w = i.payload := by
  have hop : i.op.toNat < 16 := i.op.isLt
  simp only [← BitVec.toNat_inj, fieldOp_toNat, fieldRsv_toNat, fieldPayload_toNat, encode_toNat,
    BitVec.toNat_ofNat]
  omega

/-- R72, format EV-A: with the must-be-zero bits 0, PAYLOAD is `ok`. -/
theorem fieldPayload_of_fieldAckMbz (h : fieldAckMbz w = 0#31) :
    fieldPayload w = (Instr.sinkAck (fieldOk w)).payload := by
  rw [← BitVec.toNat_inj, fieldAckMbz_toNat, BitVec.toNat_ofNat] at h
  rw [← BitVec.toNat_inj, fieldPayload_toNat, payload_sinkAck_toNat, fieldOk_toNat]
  omega

/-! ### The decoder -/

/-- What the decoder answers, with what it found in the fields (R75, R76). -/
inductive DecodeCase (w : EventWord) : Decoded → Prop where
  | event (i : Instr) (hword : encode i = w) : DecodeCase w (.event i)
  | rsvField (hrsv : fieldRsv w ≠ 0#4) : DecodeCase w (.reserved .rsvField)
  | opcode (hop : ∀ i : Instr, fieldOp w ≠ i.op) : DecodeCase w (.reserved .opcode)
  | plainPayload (hop : fieldOp w = 0x2#4 ∨ fieldOp w = 0x3#4 ∨ fieldOp w = 0x4#4)
      (hpayload : fieldPayload w ≠ 0#32) : DecodeCase w (.reserved .payload)
  | ackPayload (hop : fieldOp w = 0x5#4) (hmbz : fieldAckMbz w ≠ 0#31) : DecodeCase w (.reserved .payload)

/-- Format EV-N, for each of its three events. -/
theorem plainEvent_case (hrsv : fieldRsv w = 0#4) (hop : fieldOp w = i.op) (hzero : i.payload = 0#32)
    (hplain : i.op = 0x2#4 ∨ i.op = 0x3#4 ∨ i.op = 0x4#4) : DecodeCase w (plainEvent w i) := by
  unfold plainEvent
  split
  next hpayload => exact .event i (encode_eq_iff_fields.2 ⟨hrsv, hop, hpayload.trans hzero.symm⟩)
  next hpayload => exact .plainPayload (hop ▸ hplain) hpayload

theorem decode_case (w : EventWord) : DecodeCase w (decode w) := by
  unfold decode
  split_ifs with hrsv h1 h2 h3 h4 h5 hmbz
  · exact .rsvField hrsv
  all_goals rw [ne_eq, not_not] at hrsv
  · exact .event _ (encode_eq_iff_fields.2 ⟨hrsv, h1, rfl⟩)
  · exact plainEvent_case hrsv h2 rfl (by decide)
  · exact plainEvent_case hrsv h3 rfl (by decide)
  · exact plainEvent_case hrsv h4 rfl (by decide)
  · exact .event _ (encode_eq_iff_fields.2 ⟨hrsv, h5, fieldPayload_of_fieldAckMbz hmbz⟩)
  · exact .ackPayload h5 hmbz
  · exact .opcode fun i => by cases i <;> assumption

theorem decode_encode (i : Instr) : decode (encode i) = .event i := by
  cases i with
  | init seed =>
    obtain ⟨hrsv, hop, hpayload⟩ := encode_eq_iff_fields.1 (rfl : encode (.init seed) = _)
    simp [decode, hrsv, hop, hpayload, Instr.op, Instr.payload]
  | run => rfl
  | tick => rfl
  | consume => rfl
  | sinkAck ok => cases ok <;> rfl

/-- R71 to R76: the words that decode to an event are the one word that the encoder gives for it. -/
theorem decode_eq_event_iff : decode w = .event i ↔ encode i = w := by
  constructor
  · intro h
    cases h ▸ decode_case w with
    | event _ hword => exact hword
  · rintro rfl
    exact decode_encode i

/-- Settles O2: an event's own word has the event's fields, which the decoder reads. -/
theorem decodeOfEncodeIsTheEvent : Obligations.DecodeOfEncodeIsTheEvent := decode_encode

/-- Settles O3: where the decoder answers an event, it has found all three of the event's fields. -/
theorem everyEventHasOneWord : Obligations.EveryEventHasOneWord :=
  fun _ _ => decode_eq_event_iff.1

end Sys2Proof
end

section
/-! PROOFS. The opcode map and the reserved words (spec/30_encoding.md R73, R75). -/

namespace Sys2Proof

open Sys2Proof.Machine

variable {w : EventWord} {i : Instr} {r : Row}

/-! ### The opcode map -/

theorem encode_hits_row (i : Instr) : encode i &&& i.row.mask = i.row.pattern := by
  apply eq_of_beq
  cases i with
  | init seed => exact Laws.EncodeMatchesRow.init seed
  | run => exact Laws.EncodeMatchesRow.run
  | tick => exact Laws.EncodeMatchesRow.tick
  | consume => exact Laws.EncodeMatchesRow.consume
  | sinkAck ok => exact Laws.EncodeMatchesRow.sinkAck ok

/-- INIT's mask leaves out PAYLOAD, which is the seed. -/
theorem encode_init_of_mask (h : w &&& 0x00000000FF#40 = 0x0000000001#40) :
    encode (.init (fieldPayload w)) = w := by
  have hlow : w.toNat % 2 ^ 8 = 1 := by
    rw [← Nat.and_two_pow_sub_one_eq_mod]
    exact congrArg BitVec.toNat h
  rw [← BitVec.toNat_inj, encode_toNat, Instr.payload, fieldPayload_toNat, Instr.op, BitVec.toNat_ofNat]
  omega

/-- SINK_ACK's mask leaves out bit 8, which is `ok`. -/
theorem encode_sinkAck_of_mask (h : w &&& 0xFFFFFFFEFF#40 = 0x0000000005#40) :
    encode (.sinkAck (fieldOk w)) = w := by
  have hsplit : w = (w &&& 0xFFFFFFFEFF#40) ||| (w &&& BitVec.twoPow 40 8) := by
    rw [← BitVec.and_or_distrib_left]
    exact (BitVec.and_allOnes (x := w)).symm
  rw [h, BitVec.and_twoPow] at hsplit
  cases hok : w.getLsbD 8 <;> rw [fieldOk, hok, hsplit, hok] <;> rfl

theorem and_fullMask (w : EventWord) : w &&& 0xFFFFFFFFFF#40 = w := BitVec.and_allOnes

/-- A word that matches the row of an event is a word of the row. -/
theorem exists_encode_of_hits (j : Instr) (h : w &&& j.row.mask = j.row.pattern) :
    ∃ i, encode i = w ∧ i.row = j.row := by
  cases j with
  | init seed => exact ⟨_, encode_init_of_mask h, rfl⟩
  | run => exact ⟨.run, h.symm.trans (and_fullMask w), rfl⟩
  | tick => exact ⟨.tick, h.symm.trans (and_fullMask w), rfl⟩
  | consume => exact ⟨.consume, h.symm.trans (and_fullMask w), rfl⟩
  | sinkAck ok => exact ⟨_, encode_sinkAck_of_mask h, rfl⟩

theorem exists_row_of_mem_opcodeTable (h : r ∈ opcodeTable) : ∃ j : Instr, j.row = r := by
  simp only [opcodeTable, List.mem_cons, List.not_mem_nil, or_false] at h
  rcases h with h | h | h | h | h <;> exact ⟨_, h.symm⟩

/-- R73: a word decodes to an event of a row exactly where it matches the row. -/
theorem hits_iff_decode (hr : r ∈ opcodeTable) :
    w &&& r.mask = r.pattern ↔ ∃ i, decode w = .event i ∧ i.row = r := by
  obtain ⟨j, rfl⟩ := exists_row_of_mem_opcodeTable hr
  simp only [decode_eq_event_iff]
  constructor
  · exact exists_encode_of_hits j
  · rintro ⟨i, rfl, hrow⟩
    rw [← hrow, encode_hits_row]

/-- Settles O4: two rows that one word matches are the row of the one event to which it decodes. -/
theorem wordsDecodeByTheOpcodeMap : Obligations.WordsDecodeByTheOpcodeMap := by
  refine ⟨rfl, fun w r hr => hits_iff_decode hr, fun w r hr r' hr' h h' => ?_⟩
  obtain ⟨i, hdec, rfl⟩ := (hits_iff_decode hr).1 h
  obtain ⟨i', hdec', rfl⟩ := (hits_iff_decode hr').1 h'
  cases hdec.symm.trans hdec'
  rfl

/-! ### The reserved words -/

/-- R75 as arithmetic on the word: an undefined OP, an RSV that is not 0, or a must-be-zero bit of the format that
is not 0. -/
def reservedNumber (n : Nat) : Prop :=
  (n % 16 = 0 ∨ 6 ≤ n % 16) ∨ n / 16 % 16 ≠ 0 ∨
  ((n % 16 = 2 ∨ n % 16 = 3 ∨ n % 16 = 4) ∧ n / 256 ≠ 0) ∨ (n % 16 = 5 ∧ n / 512 ≠ 0)

/-- The OP and the PAYLOAD that R72 and R73 allow an event's word. -/
theorem op_payload_cases (i : Instr) :
    i.op.toNat = 1 ∨
    ((i.op.toNat = 2 ∨ i.op.toNat = 3 ∨ i.op.toNat = 4) ∧ i.payload.toNat = 0) ∨
    (i.op.toNat = 5 ∧ i.payload.toNat < 2) := by
  cases i with
  | init seed => exact .inl rfl
  | run => decide
  | tick => decide
  | consume => decide
  | sinkAck ok => cases ok <;> decide

theorem not_reservedNumber_encode (i : Instr) : ¬ reservedNumber (encode i).toNat := by
  rw [reservedNumber, encode_toNat]
  have hcases := op_payload_cases i
  omega

/-- The five values of OP are those of the five events. -/
theorem undefined_op (h : ∀ i : Instr, fieldOp w ≠ i.op) : w.toNat % 16 = 0 ∨ 6 ≤ w.toNat % 16 := by
  have hinit := h (.init 0)
  have hrun := h .run
  have htick := h .tick
  have hconsume := h .consume
  have hack := h (.sinkAck true)
  simp only [ne_eq, ← BitVec.toNat_inj, fieldOp_toNat, Instr.op, BitVec.toNat_ofNat] at *
  omega

theorem reservedNumber_of_decode {why : Reserved} (h : decode w = .reserved why) :
    reservedNumber w.toNat := by
  cases h ▸ decode_case w with
  | rsvField hrsv =>
    rw [ne_eq, ← BitVec.toNat_inj, fieldRsv_toNat] at hrsv
    exact .inr (.inl hrsv)
  | opcode hop => exact .inl (undefined_op hop)
  | plainPayload hop hpayload =>
    simp only [ne_eq, ← BitVec.toNat_inj, fieldOp_toNat, fieldPayload_toNat] at hop hpayload
    exact .inr (.inr (.inl ⟨hop, hpayload⟩))
  | ackPayload hop hmbz =>
    simp only [ne_eq, ← BitVec.toNat_inj, fieldOp_toNat, fieldAckMbz_toNat] at hop hmbz
    exact .inr (.inr (.inr ⟨hop, hmbz⟩))

/-- R75: the reserved words are the three cases. -/
theorem reserved_iff_reservedNumber (w : EventWord) :
    (∃ why, decode w = .reserved why) ↔ reservedNumber w.toNat := by
  constructor
  · rintro ⟨why, h⟩
    exact reservedNumber_of_decode h
  · intro h
    cases hdec : decode w with
    | event i =>
      rw [decode_eq_event_iff] at hdec
      exact absurd (hdec ▸ h) (not_reservedNumber_encode i)
    | reserved why => exact ⟨why, rfl⟩

/-- R177: a reserved word records RESERVED_EVENT in a live state. -/
theorem present_reserved_live {s : State} {why : Reserved} (hdec : decode w = .reserved why) (h : live s) :
    present w s = .next { s with fault := 0x10#8 } := by
  rw [present_reserved hdec, reservedWord_iff.2 ⟨h, rfl⟩, withFault_live _ h, setFaultBit_zero]

/-- Settles O5: what the decoder finds in a reserved word, and the one bit that it records. -/
theorem reservedWordsRaiseTheirFault : Obligations.ReservedWordsRaiseTheirFault :=
  ⟨reserved_iff_reservedNumber, fun _ _ _ hdec h => present_reserved_live hdec h⟩

end Sys2Proof
end

section
/-! PROOFS. Which events have a step in which states (spec/30_encoding.md R80). -/

namespace Sys2Proof.Machine

variable {s : State}

/-- R80 (c): INIT sets its start values or records its fault. -/
theorem exec_init_steps (seed : Seed) (h : live s) : ∃ t, exec (.init seed) s = .next t := by
  by_cases he : s.eng = .uninit
  · exact ⟨_, (exec_init_iff seed).2 ⟨h, .inr ⟨he, rfl⟩⟩⟩
  · exact ⟨_, (exec_init_iff seed).2 ⟨h, .inl ⟨he, rfl⟩⟩⟩

/-- R80 (c): RUN starts the loop or records its fault. -/
theorem exec_run_steps (h : live s) : ∃ t, exec .run s = .next t := by
  cases he : s.eng with
  | uninit => exact ⟨_, exec_run_iff.2 ⟨h, .inl ⟨he, rfl⟩⟩⟩
  | stopped => exact ⟨_, exec_run_iff.2 ⟨h, .inr (.inr ⟨he, rfl⟩)⟩⟩
  | wait => exact ⟨_, exec_run_iff.2 ⟨h, .inr (.inl ⟨.inl he, rfl⟩)⟩⟩
  | sink => exact ⟨_, exec_run_iff.2 ⟨h, .inr (.inl ⟨.inr he, rfl⟩)⟩⟩

/-- R80 (c): SINK_ACK answers the write or records its fault. -/
theorem exec_sinkAck_steps (ok : Bool) (h : live s) : ∃ t, exec (.sinkAck ok) s = .next t := by
  by_cases he : s.eng = .sink
  · cases ok with
    | true => exact ⟨_, (exec_sinkAck_iff true).2 ⟨h, .inr (.inl ⟨he, rfl, rfl⟩)⟩⟩
    | false => exact ⟨_, (exec_sinkAck_iff false).2 ⟨h, .inr (.inr ⟨he, rfl, rfl⟩)⟩⟩
  · exact ⟨_, (exec_sinkAck_iff ok).2 ⟨h, .inl ⟨he, rfl⟩⟩⟩

/-- R80 (b): an enabled CONSUME raises no fault. -/
theorem exec_consume_steps (h : canConsume s) : ∃ t, exec .consume s = .next t ∧ t.fault = 0x00#8 := by
  obtain ⟨p, -, hexec⟩ := exec_consume_enabled h
  obtain ⟨⟨-, hfault⟩, -⟩ := h
  exact ⟨_, hexec, (consumed_fault p s).trans hfault⟩

/-- R80 (d): TICK raises no fault. -/
theorem exec_tick_steps (h : live s) : ∃ t, exec .tick s = .next t ∧ t.fault = 0x00#8 :=
  ⟨_, exec_tick_live h, (ticked_fault s).trans h.2⟩

/-- Settles O22: each event in each phase of a live state; and a word that steps was presented to a live state. -/
theorem everyEventStepsOrWaitsAsTheTraceRuleSays :
    Obligations.EveryEventStepsOrWaitsAsTheTraceRuleSays :=
  ⟨fun _ => exec_consume_steps, fun _ => exec_consume_waits, fun _ seed => exec_init_steps seed,
    fun _ => exec_run_steps, fun _ ok => exec_sinkAck_steps ok, fun _ => exec_tick_steps,
    fun _ _ _ hfault h => hfault (present_next_live h).2⟩

end Sys2Proof.Machine
end

section
/-! PROOFS. The assembler (spec/30_encoding.md R79, R81): the words of a trace are those of the events its items stand
for. -/

namespace Sys2Proof.Machine

variable {c : Config} {items : List TraceItem} {ws : List EventWord}

/-- R79: everything the assembler does when it produces words. -/
theorem assemble_eq_some_iff :
    assemble c items = some ws ↔
      (∀ it ∈ items, it.wf = true) ∧ (items.flatMap (TraceItem.expand c)).map encode = ws := by
  rw [assemble, List.map_flatMap, Option.ite_none_right_eq_some, List.all_eq_true, Option.some.injEq]

/-- R79: one refused item refuses the trace. -/
theorem assemble_refused {it : TraceItem} (hmem : it ∈ items) (h : it.wf = false) :
    assemble c items = none := by
  rw [Option.eq_none_iff_forall_ne_some]
  intro ws hws
  obtain ⟨hwf, -⟩ := assemble_eq_some_iff.1 hws
  exact Bool.false_ne_true (h.symm.trans (hwf it hmem))

/-- Settles O59: a word of the trace is the encoder's word of an event, which decodes to it. -/
theorem assembledWordsAreEvents : Obligations.AssembledWordsAreEvents := by
  intro c items ws h w hw
  obtain ⟨-, rfl⟩ := assemble_eq_some_iff.1 h
  obtain ⟨i, -, rfl⟩ := List.mem_map.1 hw
  exact ⟨i, decode_encode i⟩

/-! ### The text -/

theorem encode_init_ofNat (n : Nat) :
    encode (.init (BitVec.ofNat 32 n)) = BitVec.ofNat 40 (n * 256 + 1) := by
  rw [← BitVec.toNat_inj, encode_toNat]
  simp only [Instr.payload, Instr.op, BitVec.toNat_ofNat]
  omega

/-- R79: `init n` is one word. -/
theorem assemble_init {n : Nat} (h : n < 2 ^ 32) :
    assemble c [.init n] = some [BitVec.ofNat 40 (n * 256 + 1)] := by
  rw [← encode_init_ofNat n]
  exact assemble_eq_some_iff.2 ⟨by simpa [TraceItem.wf, seedFits] using h, rfl⟩

/-- Settles O57: a seed of 2^32 or more is the one refused item, and the other words are computed. -/
theorem traceTextAssembles : Obligations.TraceTextAssembles := by
  refine ⟨fun c n h => assemble_init h, fun c n items hn hmem => assemble_refused hmem ?_, fun c => rfl, ?_⟩
  · exact decide_eq_false (Nat.not_lt.2 hn)
  · decide +kernel

/-! ### The pseudo-events -/

/-- An item that stands for `n` copies of what another one stands for assembles to the words of `n` of those. -/
theorem assemble_copies {it one : TraceItem} {n : Nat} (hit : it.wf = true) (hone : one.wf = true)
    (h : it.expand c = copies n (one.expand c)) :
    assemble c [it] = assemble c (List.replicate n one) := by
  have hevents : [it].flatMap (TraceItem.expand c) = (List.replicate n one).flatMap (TraceItem.expand c) := by
    rw [List.flatMap_replicate, List.flatMap_singleton, h, copies]
  have hwf : ∀ x ∈ List.replicate n one, x.wf = true := fun x hx => List.eq_of_mem_replicate hx ▸ hone
  rw [assemble_eq_some_iff.2 ⟨hwf, rfl⟩, ← hevents]
  exact assemble_eq_some_iff.2 ⟨by simpa using hit, rfl⟩

/-- R81: `steps n` is three words for each `step`. -/
theorem assemble_steps_length (c : Config) (n : Nat) :
    (assemble c [.steps n]).map List.length = some (n * 3) := by
  have hwf : ∀ x ∈ [TraceItem.steps n], x.wf = true := by simp [TraceItem.wf]
  rw [assemble_eq_some_iff.2 ⟨hwf, rfl⟩, List.flatMap_singleton]
  simp [TraceItem.expand, copies, stepEvents]

/-- Settles O58: each pseudo-event is so many copies of `step` or of `tick`. -/
theorem pseudoEventsExpand : Obligations.PseudoEventsExpand :=
  ⟨fun _ => rfl, fun _ _ => assemble_copies rfl rfl rfl, fun _ _ => assemble_copies rfl rfl rfl,
    fun _ => assemble_copies rfl rfl rfl, fun c => assemble_steps_length c 16384⟩

end Sys2Proof.Machine
end

section
/-! PROOFS. The tick handler's event (spec/40_tick_handler.md): one TICK is `ticked`, and ticks in a row leave only
their sum on DUTY. -/

namespace Sys2Proof.Machine

variable {s t : State}

/-! ### One TICK -/

/-- R172: every event makes the fault check of `enter` before its own. -/
theorem exec_quiescent (i : Instr) (ha : admissible s = true) (hf : s.fault ≠ 0x00#8) :
    exec i s = .fault .quiescent := by
  obtain ⟨body, hb⟩ := exec_eq_enter i s
  rw [hb, enter_quiescent ha hf]

theorem live_ticked (h : live s) : live (ticked s) := by
  obtain ⟨hcfg, hinv, hfault⟩ := (live_iff s).1 h
  exact (live_iff _).2 ⟨hcfg, invariantProp_ticked hcfg hinv, hfault⟩

/-- R101: the largest value of a counter wraps. -/
theorem wrapInc_pred {n : Nat} (h : 0 < n) : wrapInc (n - 1) n = 0 := by
  rw [wrapInc, Nat.sub_add_cancel h, Nat.mod_self]

theorem ticked_of_duty_last (h : live s) (hduty : s.duty = s.cfg.pwmResolution - 1) :
    ticked s = { s with duty := 0, ready := true } := by
  have hpos : 0 < s.cfg.pwmResolution := admittedConfig_pwmResolution_pos ((live_iff s).1 h).1
  rw [ticked, hduty, wrapInc_pred hpos]

/-- R102: a TICK that finds READY = 1 leaves no record of the drop. -/
theorem ticked_of_ready (h : s.ready = true) :
    ticked s = { s with duty := (s.duty + 1) % s.cfg.pwmResolution } := by
  rw [ticked, wrapInc, ← h]

/-- Settles O17: in a live state TICK answers `ticked s`, whose DUTY is the advanced one by definition. -/
theorem tickAdvancesDutyAndSetsReady : Obligations.TickAdvancesDutyAndSetsReady :=
  ⟨rfl, fun _ h => exec_tick_live h, fun _ ha hf => exec_quiescent .tick ha hf⟩

/-- Settles O18: R is positive, so R - 1 is the value of DUTY that wraps. -/
theorem tickWrapsAtTheResolution : Obligations.TickWrapsAtTheResolution := by
  intro s h hduty
  rw [exec_tick_live h, ticked_of_duty_last h hduty]

/-! ### Ticks in a row -/

theorem copies_succ (n : Nat) (is : List Instr) : copies (n + 1) is = is ++ copies n is := by
  rw [copies, List.replicate_succ, List.flatten_cons, copies]

theorem runEvents_cons {i : Instr} (is : List Instr) (h : exec i s = .next t) :
    runEvents (i :: is) s = runEvents is t := by
  rw [runEvents, h]

/-- Every tick of a row has a step, as TICK keeps the state live. -/
theorem runEvents_copies_tick (n : Nat) (h : live s) :
    runEvents (copies n [.tick]) s = some (ticked^[n] s) := by
  induction n generalizing s with
  | zero => rfl
  | succ n ih =>
    rw [copies_succ, List.singleton_append, runEvents_cons _ (exec_tick_live h), ih (live_ticked h),
      Function.iterate_succ_apply]

/-- R62 (c): of k + 1 ticks only their sum on DUTY remains. -/
theorem ticked_iterate_succ (k : Nat) (s : State) :
    ticked^[k + 1] s =
      { s with duty := (s.duty + (k + 1)) % s.cfg.pwmResolution, ready := true } := by
  induction k with
  | zero => rfl
  | succ k ih =>
    rw [Function.iterate_succ_apply', ih, ticked, wrapInc, Nat.mod_add_mod, Nat.add_assoc]

/-- Settles O19: with READY = 1 a TICK writes DUTY alone, and a row of ticks is `ticked` iterated. -/
theorem ticksCoalesce : Obligations.TicksCoalesce := by
  refine ⟨fun s h hready => ?_, fun k s h => ?_⟩
  · rw [exec_tick_live h, ticked_of_ready hready]
  · rw [runEvents_copies_tick (k + 1) h, ticked_iterate_succ]

/-! ### TICK and the phases -/

/-- D11: INIT writes both elements that TICK writes, and reads neither. -/
theorem initialised_ticked (seed : Seed) (s : State) :
    initialised seed (ticked s) = initialised seed s := rfl

theorem exec_init_uninit (seed : Seed) (h : live s) (heng : s.eng = .uninit) :
    exec (.init seed) s = .next (initialised seed s) :=
  (exec_init_iff seed).2 ⟨h, .inr ⟨heng, rfl⟩⟩

/-- Settles O20: TICK asks nothing of ENG and keeps it, so INIT still finds UNINIT after it. -/
theorem tickIsEnabledInEveryPhase : Obligations.TickIsEnabledInEveryPhase := by
  refine ⟨fun s h => ⟨ticked s, exec_tick_live h, ticked_eng s, live_ticked h⟩,
    fun s t seed h heng ht => ?_⟩
  obtain ⟨-, rfl⟩ := exec_tick_iff.1 ht
  have heng' : (ticked s).eng = .uninit := (ticked_eng s).trans heng
  rw [exec_init_uninit seed (live_ticked h) heng', exec_init_uninit seed h heng, initialised_ticked]

end Sys2Proof.Machine
end

section
/-! PROOFS. What becomes of each channel in a CONSUME (spec/41_animation_engine.md R118 to R121, R128). -/

namespace Sys2Proof.Machine

variable {s t : State} {p : PrngState} {i : Fin 8}

/-- CONSUME advances the channel: at a waveform-update event it was active, or the draw of the same event selects it
(R120, R127). -/
def animates (s : State) (p : PrngState) (i : Fin 8) : Prop :=
  atUpdate s ∧ ((s.chans[i]).active = true ∨ selects s p i)

/-- R118: the activation policy sets the selected channel active. -/
theorem activated_of_selects (h : selects s p i) :
    activated s p i.val i.isLt = ⟨true, (s.chans[i]).widx⟩ := by
  obtain ⟨hdraw, hlt, hcand⟩ := h
  exact if_pos ⟨(cascade_draw_iff s).2 hdraw, hcand, hlt⟩

/-- R119: the activation policy writes no other channel. -/
theorem activated_of_not_selects (h : ¬ selects s p i) : activated s p i.val i.isLt = s.chans[i] :=
  if_neg fun ⟨hdraw, hcand, hlt⟩ => h ⟨(cascade_draw_iff s).1 hdraw, hlt, hcand⟩

/-- R26: a channel that is active or selected exists. -/
theorem lt_channels_of_active_or_selects (hinv : invariantProp s)
    (h : (s.chans[i]).active = true ∨ selects s p i) : i.val < s.cfg.channels := by
  obtain ⟨-, -, -, hchans, -⟩ := hinv
  obtain ⟨-, -, hidle⟩ := hchans i
  rcases h with hactive | ⟨-, hlt, -⟩
  · by_contra hn
    rw [hidle (Nat.not_lt.1 hn)] at hactive
    exact Bool.false_ne_true hactive
  · exact hlt

theorem activated_of_active_or_selects (h : (s.chans[i]).active = true ∨ selects s p i) :
    activated s p i.val i.isLt = ⟨true, (s.chans[i]).widx⟩ := by
  by_cases hsel : selects s p i
  · exact activated_of_selects hsel
  · rw [activated_of_not_selects hsel, ← h.resolve_right hsel]

/-- R120, R121: an animating channel moves on by one index, and is active exactly when that is not 0. -/
theorem channelsAfter_of_animates (hinv : invariantProp s) (h : animates s p i) :
    (channelsAfter s p).1[i] = Channel.advance s.cfg.waveformLength ⟨true, (s.chans[i]).widx⟩ := by
  obtain ⟨hupdate, hactive⟩ := h
  rw [← activated_of_active_or_selects hactive]
  exact (channelsAfter_get s p i.val i.isLt).trans
    (if_pos ⟨(cascade_wu_iff s).2 hupdate, lt_channels_of_active_or_selects hinv hactive⟩)

theorem advance_of_inactive (len : Nat) {ch : Channel} (h : ch.active = false) : ch.advance len = ch := by
  rw [Channel.advance, h, if_neg Bool.false_ne_true]

/-- Every other channel is as it was. -/
theorem channelsAfter_of_not_animates (h : ¬ animates s p i) : (channelsAfter s p).1[i] = s.chans[i] := by
  have hsel : ¬ selects s p i := fun hsel => h ⟨hsel.1.1, .inr hsel⟩
  have hget : (channelsAfter s p).1[i] = _ := channelsAfter_get s p i.val i.isLt
  rw [hget, activated_of_not_selects hsel]
  split
  next hadv =>
    have hidle : (s.chans[i]).active = false :=
      Bool.eq_false_iff.2 fun hactive => h ⟨(cascade_wu_iff s).1 hadv.1, .inl hactive⟩
    exact advance_of_inactive _ hidle
  next => rfl

/-! ### IDLE or ANIM(k) -/

theorem advance_idleOrAnimating (len k : Nat) :
    (Channel.advance len ⟨true, k⟩).active = true ↔ (Channel.advance len ⟨true, k⟩).widx ≠ 0 := by
  rw [advance_active, decide_eq_true_eq]

theorem channelsAfter_idleOrAnimating (hinv : invariantProp s)
    (h : (s.chans[i]).active = true ↔ (s.chans[i]).widx ≠ 0) :
    ((channelsAfter s p).1[i]).active = true ↔ ((channelsAfter s p).1[i]).widx ≠ 0 := by
  by_cases hanim : animates s p i
  · rw [channelsAfter_of_animates hinv hanim]
    exact advance_idleOrAnimating _ _
  · rw [channelsAfter_of_not_animates hanim]
    exact h

/-- R128: INIT leaves every channel idle, CONSUME advances a channel that it activates, and no other event writes
one. -/
theorem EventEffect.channelsIdleOrAnimating_next {e : Instr} (heff : EventEffect s e t)
    (hinv : invariantProp s) (h : channelsIdleOrAnimating s) : channelsIdleOrAnimating t := by
  intro i
  rcases heff.chans_cases with heq | ⟨-, heq⟩ | ⟨-, p, heq⟩ <;> rw [heq]
  · exact h i
  · rw [replicate_get, Channel.idle]
    decide
  · exact channelsAfter_idleOrAnimating hinv (h i)

theorem PresentEffect.channelsIdleOrAnimating_next {w : EventWord} (heff : PresentEffect s w t)
    (hinv : invariantProp s) (h : channelsIdleOrAnimating s) : channelsIdleOrAnimating t := by
  cases heff with
  | event e _ heff => exact heff.channelsIdleOrAnimating_next hinv h
  | reserved => exact h

/-- Settles O51: a word that steps finds a state within R36, and what it leaves keeps every channel IDLE or ANIM(k). -/
theorem stepKeepsChannelsIdleOrAnimating : Obligations.StepKeepsChannelsIdleOrAnimating := by
  intro s t h hstep
  obtain ⟨w, rest, -, hw⟩ := step_next_cases hstep
  obtain ⟨-, hinv, -⟩ := (live_iff _).1 (present_next_live hw)
  have hwait : channelsIdleOrAnimating (withEvents rest s) := h
  exact (present_next_effect hw).channelsIdleOrAnimating_next hinv hwait

/-! ### CONSUME -/

/-- Settles O27: CONSUME advances the channels that animate and writes no other. -/
theorem channelsAfterConsume : Obligations.ChannelsAfterConsume := by
  intro s p hcan hp
  obtain ⟨-, hinv, -⟩ := (live_iff s).1 hcan.1
  refine ⟨consumed p s, exec_consume_iff.2 ⟨hcan, p, hp, rfl⟩, fun i => ⟨fun h => ?_, fun h => ?_⟩⟩ <;>
    rw [consumed_chans]
  · rw [channelsAfter_of_animates hinv h, advance_active, decide_eq_true_eq]
    exact ⟨rfl, Iff.rfl⟩
  · exact channelsAfter_of_not_animates h

/-- A channel that CONSUME turns active is the one selected by its draw. -/
theorem selects_of_newly_active (hoff : (s.chans[i]).active = false)
    (hon : ((channelsAfter s p).1[i]).active = true) : selects s p i := by
  have hanim : animates s p i := by
    by_contra hn
    rw [channelsAfter_of_not_animates hn, hoff] at hon
    exact Bool.false_ne_true hon
  obtain ⟨-, hactive⟩ := hanim
  exact hactive.resolve_left (Bool.eq_false_iff.1 hoff)

/-- Settles O28: a channel newly activated is the one whose number is the candidate of the event's one draw. -/
theorem atMostOneChannelIsNewlyActivated : Obligations.AtMostOneChannelIsNewlyActivated := by
  intro s t i j _ h hioff hion
  obtain ⟨-, p, -, rfl⟩ := exec_consume_iff.1 h
  rw [consumed_chans] at hion ⊢
  obtain ⟨hdraw, -, hi⟩ := selects_of_newly_active hioff hion
  refine ⟨hdraw, fun hjoff hjon => ?_⟩
  obtain ⟨-, -, hj⟩ := selects_of_newly_active hjoff hjon
  exact Fin.ext (hi.trans hj.symm)

end Sys2Proof.Machine
end

section
/-! PROOFS. The counter cascade and the draw of a CONSUME (spec/41_animation_engine.md R112 to R117). -/

namespace Sys2Proof.Machine

variable {s t : State} {p : PrngState} {i : Instr}

/-- R113: WUC advances at a period boundary. -/
theorem cascade_wuc_of_boundary (h : atBoundary s) :
    (cascade s.cfg s.duty s.wuc s.pac).wuc = (s.wuc + 1) % s.cfg.waveformUpdateCount := by
  by_cases hw : wrapInc s.wuc s.cfg.waveformUpdateCount = 0
  · rw [cascade_update h hw]
    exact hw.symm
  · rw [cascade_boundary h hw, wrapInc]

/-- R115: PAC advances at a waveform-update event. -/
theorem cascade_pac_of_update (h : atUpdate s) :
    (cascade s.cfg s.duty s.wuc s.pac).pac = (s.pac + 1) % s.cfg.prngUpdateCount := by
  rw [cascade_update h.1 h.2, wrapInc]

/-- R115: and only there. -/
theorem cascade_pac_of_not_update (h : ¬ atUpdate s) :
    (cascade s.cfg s.duty s.wuc s.pac).pac = s.pac := by
  rcases cascade_cases s.cfg s.duty s.wuc s.pac with ⟨-, e⟩ | ⟨-, -, e⟩ | ⟨hb, hw, -⟩
  · rw [e]
  · rw [e]
  · exact absurd ⟨hb, hw⟩ h

/-- R117: one byte is drawn at a draw event. -/
theorem channelsAfter_prng_of_draw (h : atDraw s) : (channelsAfter s p).2 = (prngNext s.cfg p).2 := by
  rw [channelsAfter_prng, if_pos ((cascade_draw_iff s).2 h)]

/-- R117: and none at any other event. -/
theorem channelsAfter_prng_of_not_draw (h : ¬ atDraw s) : (channelsAfter s p).2 = p := by
  rw [channelsAfter_prng, if_neg (mt (cascade_draw_iff s).1 h)]

/-- R112: off a period boundary a CONSUME writes none of the animation's state. -/
theorem consumed_off_boundary (hp : s.prng = some p) (h : ¬ atBoundary s) :
    (consumed p s).wuc = s.wuc ∧ (consumed p s).pac = s.pac ∧ (consumed p s).chans = s.chans ∧
    (consumed p s).prng = s.prng := by
  have hnodraw : ¬ atDraw s := fun hdraw => h hdraw.1.1
  refine ⟨?_, ?_, chans_ext fun k => ?_, ?_⟩
  · rw [consumed_wuc, cascade_off_boundary h]
  · rw [consumed_pac, cascade_off_boundary h]
  · rw [consumed_chans, channelsAfter_of_not_animates fun hanim => h hanim.1.1]
  · rw [consumed_prng, channelsAfter_prng_of_not_draw hnodraw, hp]

/-- Settles O24: what CONSUME leaves in WUC and PAC is the cascade's, which advances at its own events only. -/
theorem cascadeAdvancesAtBoundaries : Obligations.CascadeAdvancesAtBoundaries := by
  refine ⟨fun s t _ h hoff => ?_, fun s t _ h hb => ?_, fun s t _ h hu => ?_, fun s t _ h hu => ?_⟩ <;>
    obtain ⟨-, p, hp, rfl⟩ := exec_consume_iff.1 h
  · exact consumed_off_boundary hp hoff
  · exact cascade_wuc_of_boundary hb
  · exact cascade_pac_of_update hu
  · exact cascade_pac_of_not_update hu

/-- R192: the generator's state is written by CONSUME and by INIT only. -/
theorem EventEffect.prng_eq (h : EventEffect s i t) (hconsume : i ≠ .consume)
    (hinit : ∀ seed, i ≠ .init seed) : t.prng = s.prng := by
  cases h with
  | consume p => exact absurd rfl hconsume
  | init seed => exact absurd rfl (hinit seed)
  | tick => exact ticked_prng s
  | ackOk => exact writeSucceeded_prng s
  | ackFailed => exact writeFailed_prng s
  | run => exact running_prng s
  | raised code => exact withFault_prng code s

/-- Settles O25: CONSUME's activation policy draws at a draw event, and the other updates but INIT's keep PRNG. -/
theorem prngIsDrawnAtDrawEventsOnly : Obligations.PrngIsDrawnAtDrawEventsOnly := by
  refine ⟨fun s t p _ hp h => ?_, fun i s t hconsume hinit h => (exec_next_effect h).prng_eq hconsume hinit⟩
  obtain ⟨-, q, hq, rfl⟩ := exec_consume_iff.1 h
  obtain rfl : p = q := Option.some.inj (hp.symm.trans hq)
  exact ⟨fun hdraw => congrArg some (channelsAfter_prng_of_draw hdraw),
    fun hdraw => congrArg some (channelsAfter_prng_of_not_draw hdraw)⟩

end Sys2Proof.Machine
end

section
/-! PROOFS. The activation match of a draw, and how many bytes select a channel (spec/41_animation_engine.md R118). -/

namespace Sys2Proof.Machine

variable {c : Config} {b : Byte} {i : Fin 8}

/-! ### The match -/

theorem activate_of_match (chans : Vector Channel 8) (hi : i.val = candidate c b) (hlt : candidate c b < c.channels) :
    (activate c b chans)[i] = ⟨true, (chans[i]).widx⟩ :=
  (activate_get c b chans i.val i.isLt).trans (if_pos ⟨hi, hi ▸ hlt⟩)

theorem activate_of_no_match (chans : Vector Channel 8) (h : i.val ≠ candidate c b ∨ c.channels ≤ candidate c b) :
    (activate c b chans)[i] = chans[i] := by
  refine (activate_get c b chans i.val i.isLt).trans (if_neg fun ⟨hi, hlt⟩ => ?_)
  rcases h with hne | hge
  · exact hne hi
  · omega

/-! ### Counting bytes -/

/-- A property of the remainder modulo `m` holds in each of `q` rows of `m` numbers as often as in the first. -/
theorem countP_range_mul_mod (P : Nat → Bool) (q m : Nat) :
    (List.range (q * m)).countP (fun b => P (b % m)) = q * (List.range m).countP P := by
  induction q with
  | zero => simp
  | succ q ih =>
    have hrow : (List.range m).countP ((fun b => P (b % m)) ∘ (q * m + ·)) = (List.range m).countP P :=
      List.countP_congr fun b hb => by
        simp [Nat.mod_eq_of_lt (List.mem_range.1 hb)]
    rw [Nat.succ_mul, List.range_add, List.countP_append, ih, List.countP_map, hrow, Nat.succ_mul]

theorem countP_range_lt (n thr : Nat) : (List.range n).countP (fun k => decide (k < thr)) = min n thr := by
  induction n with
  | zero => simp
  | succ n ih =>
    simp only [List.range_succ, List.countP_append, ih, List.countP_singleton, decide_eq_true_eq]
    split <;> omega

theorem countP_range_ge (n lo : Nat) : (List.range n).countP (fun k => decide (lo ≤ k)) = n - lo := by
  have hsplit := List.length_eq_countP_add_countP (l := List.range n) fun k => decide (k < lo)
  simp only [List.length_range, countP_range_lt, decide_eq_true_eq, Nat.not_lt] at hsplit
  omega

theorem countP_range_eq {n i : Nat} (h : i < n) : (List.range n).countP (fun k => decide (k = i)) = 1 :=
  List.count_eq_one_of_mem List.nodup_range (List.mem_range.2 h)

/-- R6: the mask is `2^k - 1`, so masking is the remainder modulo M + 1, which divides the 256 bytes. -/
theorem admittedConfig_mask (h : admittedConfig c = true) :
    (∀ b : Nat, b &&& c.activeMask = b % (c.activeMask + 1)) ∧ c.activeMask + 1 ∣ 256 := by
  obtain ⟨-, -, -, -, -, hpow, -, hle, -⟩ := (admittedConfig_iff c).1 h
  obtain ⟨k, hk⟩ := (isPowerOfTwo_iff _).1 hpow
  have hmask : c.activeMask = 2 ^ k - 1 := by omega
  have hk8 : 2 ^ k ≤ 2 ^ 8 := by omega
  refine ⟨fun b => ?_, ?_⟩
  · rw [hk, hmask, Nat.and_two_pow_sub_one_eq_mod]
  · rw [hk]
    exact Nat.pow_dvd_pow 2 ((Nat.pow_le_pow_iff_right (by decide)).1 hk8)

/-- The bytes whose candidate has a property, times M + 1, are 256 times the candidates that have it. -/
theorem countP_candidate (h : admittedConfig c = true) (P : Nat → Bool) :
    (List.range 256).countP (fun b => P (b &&& c.activeMask)) * (c.activeMask + 1) =
      256 * (List.range (c.activeMask + 1)).countP P := by
  obtain ⟨hmod, q, hq⟩ := admittedConfig_mask h
  simp only [hmod]
  rw [hq, Nat.mul_comm _ q, countP_range_mul_mod]
  ring

/-- Settles O26: `activate` compares each channel's number with the candidate, and of each M + 1 bytes in a row one has
a given candidate. -/
theorem activationSetsTheExactMatch : Obligations.ActivationSetsTheExactMatch := by
  refine ⟨fun c b chans i _ => ⟨fun hi hlt => ?_, fun hi => activate_of_no_match chans (.inl hi),
    fun hge => chans_ext fun k => activate_of_no_match chans (.inr hge)⟩, fun c h => ⟨fun i hi => ?_, ?_⟩⟩
  · rw [activate_of_match chans hi hlt]
    exact ⟨rfl, rfl⟩
  · obtain ⟨-, -, -, -, -, -, hmask, -⟩ := (admittedConfig_iff c).1 h
    have hlt : i < c.activeMask + 1 := by omega
    rw [countP_candidate h fun k => decide (k = i), countP_range_eq hlt]
  · rw [countP_candidate h fun k => decide (c.channels ≤ k), countP_range_ge]

end Sys2Proof.Machine
end

section
/-! PROOFS. The byte that a CONSUME composes and its one write (spec/41_animation_engine.md R110, R111, R122 to
R126). -/

namespace Sys2Proof.Machine

variable {c : Config}

/-! ### The comparison -/

/-- Settles O31: a threshold of the ROM is at most R, so all the snapshots below it are among the R values. -/
theorem dutyCycleIsTheThreshold : Obligations.DutyCycleIsTheThreshold := by
  intro c k h
  have hcount : (List.range c.pwmResolution).countP (fun snap => brightnessBit snap (memRead c k)) = _ :=
    countP_range_lt c.pwmResolution (memRead c k)
  rw [hcount, Nat.min_eq_right (memRead_le h k)]

/-- R122, R123: the bit of a channel that exists. -/
theorem compose_getLsbD_present (snap : Nat) (chans : Vector Channel 8) {i : Fin 8} (h : i.val < c.channels) :
    (compose c snap chans).getLsbD i.val = true ↔ snap < memRead c (chans[i]).widx := by
  rw [compose_getLsbD, channelBit, decide_eq_true h, Bool.true_and, brightnessBit, decide_eq_true_eq]

/-! ### The answer of CONSUME -/

/-- Settles O23: the state CONSUME leaves has READY cleared and its byte composed of the DUTY it keeps. -/
theorem consumeSnapshotsAndClears : Obligations.ConsumeSnapshotsAndClears := by
  intro s h
  obtain ⟨p, -, hexec⟩ := exec_consume_enabled h
  exact ⟨consumed p s, hexec, consumed_ready p s, consumed_duty p s, consumed_out p s⟩

/-- Settles O29: OUT is the composed byte, whose bits are the channels' bits. -/
theorem outputBitsCompareSnapshotWithThreshold : Obligations.OutputBitsCompareSnapshotWithThreshold := by
  intro s h
  obtain ⟨p, -, hexec⟩ := exec_consume_enabled h
  exact ⟨consumed p s, hexec, fun i =>
    ⟨compose_getLsbD_present s.duty (channelsAfter s p).1, compose_getLsbD_absent s.duty (channelsAfter s p).1 i⟩⟩

/-- Settles O32: CONSUME ends in `sinkWrite`, and in SINK it is not enabled. -/
theorem consumeIssuesOneSinkWrite : Obligations.ConsumeIssuesOneSinkWrite := by
  refine ⟨fun s h => ?_, fun s h heng => exec_consume_waits h (.inl (by simp [heng]))⟩
  obtain ⟨p, -, hexec⟩ := exec_consume_enabled h
  exact ⟨consumed p s, hexec, consumed_obs p s, consumed_eng p s⟩

/-- Settles O33: `consumed` writes none of these elements, and an absent channel does not animate. -/
theorem consumeFrame : Obligations.ConsumeFrame := by
  intro s t h
  obtain ⟨⟨hlive, -⟩, p, -, rfl⟩ := exec_consume_iff.1 h
  obtain ⟨-, hinv, -⟩ := (live_iff s).1 hlive
  refine ⟨consumed_duty p s, consumed_errSink p s, consumed_fault p s, consumed_cfg p s, consumed_events p s,
    ⟨_, consumed_obs p s⟩, fun i hi => ?_, fun k => by rw [consumed_cfg]⟩
  rw [consumed_chans]
  exact channelsAfter_of_not_animates fun hanim =>
    Nat.not_lt.2 hi (lt_channels_of_active_or_selects hinv hanim.2)

end Sys2Proof.Machine
end

section
/-! PROOFS. The sink's answer (spec/41_animation_engine.md R140 to R142). -/

namespace Sys2Proof.Machine

variable {s t : State} {i : Instr}

theorem exec_sinkAck_ok (h : live s) (heng : s.eng = .sink) :
    exec (.sinkAck true) s = .next (writeSucceeded s) :=
  (exec_sinkAck_iff true).2 ⟨h, .inr (.inl ⟨heng, rfl, rfl⟩)⟩

theorem exec_sinkAck_failed (h : live s) (heng : s.eng = .sink) :
    exec (.sinkAck false) s = .next (writeFailed s) :=
  (exec_sinkAck_iff false).2 ⟨h, .inr (.inr ⟨heng, rfl, rfl⟩)⟩

theorem exec_sinkAck_spurious (ok : Bool) (h : live s) (heng : s.eng ≠ .sink) :
    exec (.sinkAck ok) s = .next { s with fault := 0x08#8 } := by
  rw [(exec_sinkAck_iff ok).2 ⟨h, .inl ⟨heng, rfl⟩⟩, withFault_live .spuriousAck h, setFaultBit_zero]

/-- A next state without a fault is live: the event keeps R36. -/
theorem live_of_exec_next (h : exec i s = .next t) (hfault : t.fault = 0x00#8) : live t := by
  have heff : EventEffect s i t := exec_next_effect h
  obtain ⟨hcfg, hinv, -⟩ := (live_iff s).1 (exec_next_live h)
  exact (live_iff t).2 ⟨heff.cfg_eq ▸ hcfg, heff.invariantProp_next hcfg hinv, hfault⟩

theorem live_writeSucceeded (h : live s) (heng : s.eng = .sink) : live (writeSucceeded s) :=
  live_of_exec_next (exec_sinkAck_ok h heng) ((writeSucceeded_fault s).trans h.2)

/-- Settles O34: the answers are the two updates in SINK, the fault in another phase, and none once faulted. -/
theorem sinkAckAnswersTheWrite : Obligations.SinkAckAnswersTheWrite :=
  ⟨by decide, fun _ h heng => exec_sinkAck_ok h heng, fun _ h heng => exec_sinkAck_failed h heng,
    fun _ ok h heng => exec_sinkAck_spurious ok h heng, fun _ ok ha hf => exec_quiescent (.sinkAck ok) ha hf⟩

/-- Settles O35: a successful answer keeps READY and returns to WAIT, which is where CONSUME is enabled. -/
theorem pendingTickIsConsumedAfterTheAck : Obligations.PendingTickIsConsumedAfterTheAck := by
  intro s h heng hready
  have hcan : canConsume (writeSucceeded s) :=
    ⟨live_writeSucceeded h heng, writeSucceeded_eng s, (writeSucceeded_ready s).trans hready⟩
  obtain ⟨p, -, hexec⟩ := exec_consume_enabled hcan
  exact ⟨_, _, exec_sinkAck_ok h heng, writeSucceeded_eng s, hexec, consumed_ready p _⟩

end Sys2Proof.Machine
end

section
/-! PROOFS. A channel's full cycle, and where the animation's invariants start (spec/41_animation_engine.md R128). -/

namespace Sys2Proof.Machine

variable {len : Nat}

/-- Short of L an advance moves on by one index and the channel stays active. -/
theorem advance_below {k : Nat} (h : k + 1 < len) : Channel.advance len ⟨true, k⟩ = ⟨true, k + 1⟩ := by
  rw [advance_active, Nat.mod_eq_of_lt h, decide_eq_true (Nat.succ_ne_zero k)]

/-- R121: the advance from L - 1 completes the animation. -/
theorem advance_last {k : Nat} (h : k + 1 = len) : Channel.advance len ⟨true, k⟩ = Channel.idle := by
  rw [advance_active, h, Nat.mod_self]
  rfl

theorem advance_iterate_below {n : Nat} (h : n < len) : (Channel.advance len)^[n] ⟨true, 0⟩ = ⟨true, n⟩ := by
  induction n with
  | zero => rfl
  | succ n ih => rw [Function.iterate_succ_apply', ih (Nat.lt_of_succ_lt h), advance_below h]

/-- Settles O50: L - 1 advances reach index L - 1, and one more completes. -/
theorem fullCycleTakesLengthAdvances : Obligations.FullCycleTakesLengthAdvances := by
  intro len hpos
  obtain ⟨n, rfl⟩ := Nat.exists_eq_add_of_le' hpos
  refine ⟨fun k => advance_iterate_below, ?_⟩
  rw [Function.iterate_succ_apply', advance_iterate_below n.lt_succ_self, advance_last rfl, Channel.idle]

theorem resetWith_idle (c : Config) (i : Fin 8) : (State.resetWith c).chans[i] = Channel.idle :=
  replicate_get Channel.idle i

/-- Settles O54: at reset every channel is idle and nothing has been observed. -/
theorem resetStartsTheAnimationInvariants : Obligations.ResetStartsTheAnimationInvariants := by
  refine ⟨fun c => ⟨fun i => ?_, ⟨fun i h => ?_, fun i j h => ?_⟩, rfl⟩, by decide⟩
  · rw [resetWith_idle, Channel.idle]
    decide
  · rw [resetWith_idle] at h
    exact absurd h Bool.false_ne_true
  · rw [resetWith_idle] at h
    exact absurd h Bool.false_ne_true

end Sys2Proof.Machine
end

section
/-! PROOFS. Serviced ticks (spec/30_encoding.md R81): a TICK, the CONSUME that it wakes and a successful answer; and
what the R of them in a PWM period write (spec/41_animation_engine.md R123). -/

namespace Sys2Proof.Machine

variable {s : State} {p : PrngState}

/-! ### One serviced tick -/

/-- The state after one serviced tick, the PRNG being seeded with state `p`. -/
def serviced (p : PrngState) (s : State) : State := writeSucceeded (consumed p (ticked s))

@[simp] theorem serviced_duty (p : PrngState) (s : State) :
    (serviced p s).duty = wrapInc s.duty s.cfg.pwmResolution := rfl
@[simp] theorem serviced_eng (p : PrngState) (s : State) : (serviced p s).eng = Phase.wait := rfl
@[simp] theorem serviced_errSink (p : PrngState) (s : State) : (serviced p s).errSink = s.errSink := rfl
@[simp] theorem serviced_cfg (p : PrngState) (s : State) : (serviced p s).cfg = s.cfg := rfl

/-- What a serviced tick adds to the observation (R13): the write of the byte composed of the snapshot, and its
answer. -/
def servicedObs (c : Config) (chans : Vector Channel 8) (errSink : Bool) (snap : Nat) : List Obs :=
  [.sinkWrite (compose c snap chans), .sinkAnswer true errSink]

theorem serviced_obs (p : PrngState) (s : State) :
    (serviced p s).obs =
      s.obs ++ servicedObs s.cfg (serviced p s).chans s.errSink (serviced p s).duty :=
  List.append_assoc s.obs _ _

/-- R112: off a period boundary a serviced tick writes no channel. -/
theorem serviced_chans_off_boundary (hp : s.prng = some p) (h : (serviced p s).duty ≠ 0) :
    (serviced p s).chans = s.chans := by
  have hp' : (ticked s).prng = some p := (ticked_prng s).trans hp
  obtain ⟨-, -, hchans, -⟩ := consumed_off_boundary hp' h
  exact hchans.trans (ticked_chans s)

/-- R197, R126, R142: each of the three events has a step, and leaves a live engine in WAIT. -/
theorem runEvents_stepEvents (h : live s) (heng : s.eng = .wait) :
    ∃ p, s.prng = some p ∧ live (serviced p s) ∧ runEvents stepEvents s = some (serviced p s) := by
  have htick : live (ticked s) := live_ticked h
  have hcan : canConsume (ticked s) := ⟨htick, (ticked_eng s).trans heng, ticked_ready s⟩
  obtain ⟨p, hp, hconsume⟩ := exec_consume_enabled hcan
  have hsink : live (consumed p (ticked s)) :=
    live_of_exec_next hconsume ((consumed_fault p _).trans htick.2)
  have hack := exec_sinkAck_ok hsink (consumed_eng p _)
  refine ⟨p, (ticked_prng s).symm.trans hp, live_writeSucceeded hsink (consumed_eng p _), ?_⟩
  rw [stepEvents, runEvents_cons _ (exec_tick_live h), runEvents_cons _ hconsume, runEvents_cons _ hack]
  rfl

/-! ### A PWM period -/

theorem runEvents_append {t : State} (is js : List Instr) (h : runEvents is s = some t) :
    runEvents (is ++ js) s = runEvents js t := by
  induction is generalizing s with
  | nil => exact congrArg (runEvents js) (Option.some.inj h)
  | cons i is ih =>
    rw [runEvents] at h
    rw [List.cons_append, runEvents]
    cases hi : exec i s with
    | next u =>
      rw [hi] at h
      exact ih h
    | fault f => simp [hi] at h
    | refused r => simp [hi] at h

/-- Short of the next period boundary n serviced ticks write no channel, and compose the bytes of the next n
snapshots. -/
theorem runEvents_copies_within_period (n : Nat) (h : live s) (heng : s.eng = .wait)
    (hduty : s.duty + n < s.cfg.pwmResolution) :
    ∃ t, runEvents (copies n stepEvents) s = some t ∧ t.chans = s.chans ∧ t.duty = s.duty + n ∧
      t.obs = s.obs ++ (List.range' (s.duty + 1) n).flatMap (servicedObs s.cfg s.chans s.errSink) := by
  induction n generalizing s with
  | zero => exact ⟨s, rfl, rfl, rfl, (List.append_nil s.obs).symm⟩
  | succ n ih =>
    obtain ⟨p, hp, hlive, hrun⟩ := runEvents_stepEvents h heng
    have hnext : (serviced p s).duty = s.duty + 1 := Nat.mod_eq_of_lt (by omega)
    have hchans : (serviced p s).chans = s.chans := serviced_chans_off_boundary hp (by omega)
    have hroom : (serviced p s).duty + n < (serviced p s).cfg.pwmResolution := by
      rw [serviced_cfg]
      omega
    obtain ⟨t, hrun', htchans, htduty, htobs⟩ := ih hlive (serviced_eng p s) hroom
    refine ⟨t, ?_, htchans.trans hchans, by omega, ?_⟩
    · rw [copies_succ, runEvents_append _ _ hrun, hrun']
    · rw [htobs, serviced_obs, hchans, hnext, serviced_cfg, serviced_errSink, List.append_assoc,
        List.range'_succ, List.flatMap_cons]

theorem length_flatMap_servicedObs (c : Config) (chans : Vector Channel 8) (errSink : Bool) (snaps : List Nat) :
    (snaps.flatMap (servicedObs c chans errSink)).length = 2 * snaps.length := by
  simp [servicedObs, List.length_flatMap, Nat.mul_comm]

/-- Of the two observations of a serviced tick the write has bit i set where channel i is ON (R124). -/
theorem writesOn_servicedObs (c : Config) (chans : Vector Channel 8) (errSink : Bool) (snap : Nat) (i : Fin 8) :
    writesOn i (servicedObs c chans errSink snap) = if channelBit c snap chans i = true then 1 else 0 := by
  simp only [writesOn, servicedObs, List.countP_cons, List.countP_nil, compose_getLsbD, Bool.false_eq_true,
    if_false, Nat.zero_add]

theorem writesOn_append (i : Fin 8) (l m : List Obs) : writesOn i (l ++ m) = writesOn i l + writesOn i m :=
  List.countP_append

theorem writesOn_flatMap_servicedObs (c : Config) (chans : Vector Channel 8) (errSink : Bool) (i : Fin 8)
    (snaps : List Nat) :
    writesOn i (snaps.flatMap (servicedObs c chans errSink)) =
      snaps.countP fun snap => channelBit c snap chans i := by
  induction snaps with
  | nil => rfl
  | cons snap snaps ih =>
    rw [List.flatMap_cons, writesOn_append, writesOn_servicedObs, ih, List.countP_cons, Nat.add_comm]

/-- Within R36 an absent channel is idle, so its bit too is the comparison with the threshold at its index. -/
theorem channelBit_eq_brightnessBit {c : Config} {chans : Vector Channel 8} {i : Fin 8} (snap : Nat)
    (hcfg : admittedConfig c = true) (hok : channelOk c i.val (chans[i])) :
    channelBit c snap chans i = brightnessBit snap (memRead c (chans[i]).widx) := by
  obtain ⟨-, -, habsent⟩ := hok
  by_cases hi : i.val < c.channels
  · rw [channelBit, decide_eq_true hi, Bool.true_and]
  · have hwidx : (chans[i]).widx = 0 := by rw [habsent (Nat.not_lt.1 hi), Channel.idle]
    rw [channelBit_of_widx_zero snap hcfg hwidx, hwidx, memRead_zero hcfg]
    rfl

theorem countP_channelBit {c : Config} {chans : Vector Channel 8} {i : Fin 8}
    (hcfg : admittedConfig c = true) (hok : channelOk c i.val (chans[i])) :
    (List.range c.pwmResolution).countP (fun snap => channelBit c snap chans i) =
      memRead c (chans[i]).widx := by
  rw [← dutyCycleIsTheThreshold c (chans[i]).widx hcfg]
  exact List.countP_congr fun snap _ => by rw [channelBit_eq_brightnessBit snap hcfg hok]

/-- From the last value of DUTY, R serviced ticks are one at the period boundary, which leaves the channels of the
period, and one for each other snapshot. -/
theorem runEvents_copies_period (h : live s) (heng : s.eng = .wait)
    (hduty : s.duty = s.cfg.pwmResolution - 1) :
    ∃ b t, runEvents stepEvents s = some b ∧ live b ∧ b.cfg = s.cfg ∧
      runEvents (copies s.cfg.pwmResolution stepEvents) s = some t ∧ t.chans = b.chans ∧ t.duty = s.duty ∧
      t.obs = s.obs ++
        (List.range s.cfg.pwmResolution).flatMap (servicedObs s.cfg b.chans s.errSink) := by
  have hpos : 0 < s.cfg.pwmResolution := admittedConfig_pwmResolution_pos ((live_iff s).1 h).1
  have hR : s.cfg.pwmResolution = s.duty + 1 := by omega
  obtain ⟨p, -, hlive, hrun⟩ := runEvents_stepEvents h heng
  have hzero : (serviced p s).duty = 0 := by rw [serviced_duty, hduty, wrapInc_pred hpos]
  have hroom : (serviced p s).duty + s.duty < (serviced p s).cfg.pwmResolution := by
    rw [serviced_cfg]
    omega
  obtain ⟨t, hrest, hchans, htduty, hobs⟩ :=
    runEvents_copies_within_period s.duty hlive (serviced_eng p s) hroom
  refine ⟨serviced p s, t, hrun, hlive, serviced_cfg p s, ?_, hchans, by omega, ?_⟩
  · rw [hR, copies_succ, runEvents_append _ _ hrun, hrest]
  · rw [hobs, serviced_obs, hzero, serviced_cfg, serviced_errSink, hR, List.range_eq_range', List.range'_succ,
      List.flatMap_cons, List.append_assoc]

/-- Settles O60: the R snapshots of the period are compared with one threshold, as the channels stay as its boundary
leaves them. -/
theorem periodIsOnForTheThreshold : Obligations.PeriodIsOnForTheThreshold := by
  intro s i h heng _ hduty
  obtain ⟨b, t, hb, hlive, hbcfg, ht, hchans, htduty, hobs⟩ := runEvents_copies_period h heng hduty
  obtain ⟨hcfg, hinv, -⟩ := (live_iff b).1 hlive
  obtain ⟨-, -, -, hchanOk, -⟩ := hinv
  rw [hbcfg] at hcfg hchanOk
  refine ⟨b, t, _, hb, ht, hchans, htduty, hobs, ?_, ?_⟩
  · rw [length_flatMap_servicedObs, List.length_range]
  · rw [writesOn_flatMap_servicedObs, countP_channelBit hcfg (hchanOk i), hchans]

end Sys2Proof.Machine
end

section
/-! PROOFS. The host's two operations INIT and RUN, and what RUN and SINK_ACK leave unchanged
(spec/42_host_interface.md R150 to R158, spec/41_animation_engine.md R140, R141). -/

namespace Sys2Proof.Machine

variable {s t : State} {i : Instr} {code : FaultCode}

/-- R171: a misuse of a live state records the bit of its code alone. -/
theorem exec_raises (h : live s) (hcode : Raises s i code) :
    exec i s = .next { s with fault := setFaultBit 0x00#8 code } := by
  rw [(EventEffect.raised code hcode).exec_next h, withFault_live code h]

theorem exec_run_stopped (h : live s) (heng : s.eng = .stopped) : exec .run s = .next (running s) :=
  (EventEffect.run heng).exec_next h

theorem live_writeFailed (h : live s) (heng : s.eng = .sink) : live (writeFailed s) :=
  live_of_exec_next (exec_sinkAck_failed h heng) ((writeFailed_fault s).trans h.2)

/-- Settles O36: the failed answer stops the loop in a live state, where RUN starts it and clears ERR_SINK. -/
theorem runResumesAfterAFailedWrite : Obligations.RunResumesAfterAFailedWrite := by
  intro s h heng
  have hrun : exec .run (writeFailed s) = .next (running (writeFailed s)) :=
    exec_run_stopped (live_writeFailed h heng) (writeFailed_eng s)
  rw [runEvents_cons _ (exec_sinkAck_failed h heng), runEvents_cons _ hrun]
  rfl

/-- R141, R155: RUN and SINK_ACK write ENG, ERR_SINK, FAULT and the observation, and RUN not the last. -/
theorem EventEffect.eq_of_run_or_sinkAck (h : EventEffect s i t) (hi : i = .run ∨ ∃ ok, i = .sinkAck ok) :
    ∃ eng errSink fault obs,
      t = { s with eng := eng, errSink := errSink, fault := fault, obs := obs } ∧ (i = .run → obs = s.obs) := by
  rcases hi with rfl | ⟨ok, rfl⟩
  · cases h with
    | run => exact ⟨_, _, _, _, rfl, fun _ => rfl⟩
    | raised code => exact ⟨_, _, _, _, rfl, fun _ => rfl⟩
  · cases h with
    | ackOk => exact ⟨_, _, _, _, rfl, nofun⟩
    | ackFailed => exact ⟨_, _, _, _, rfl, nofun⟩
    | raised code => exact ⟨_, _, _, _, rfl, nofun⟩

/-- Settles O37: none of the framed elements is among the four that these events write. -/
theorem runAndSinkAckFrame : Obligations.RunAndSinkAckFrame := by
  intro i s t hi h
  obtain ⟨_, _, _, _, rfl, hobs⟩ := (exec_next_effect h).eq_of_run_or_sinkAck hi
  exact ⟨rfl, rfl, rfl, rfl, rfl, rfl, rfl, rfl, rfl, hobs, fun _ => rfl⟩

/-- Settles O39: INIT sets its start values at UNINIT, FAULT not among them, and records its fault elsewhere. -/
theorem initFrame : Obligations.InitFrame := by
  intro s t seed h
  obtain ⟨-, ⟨heng, rfl⟩ | ⟨heng, rfl⟩⟩ := (exec_init_iff seed).1 h
  · exact ⟨withFault_cfg _ s, withFault_events _ s, fun hu => absurd hu heng, fun _ => rfl, fun _ => rfl⟩
  · exact ⟨initialised_cfg seed s, initialised_events seed s, fun _ => initialised_fault seed s,
      fun hn => absurd heng hn, fun _ => rfl⟩

/-- Settles O38: INIT answers the start values at UNINIT, its fault in another phase, and nothing once faulted. -/
theorem initSetsTheStartValues : Obligations.InitSetsTheStartValues :=
  ⟨fun _ => rfl, fun _ seed h heng => exec_init_uninit seed h heng,
    fun _ seed h heng => exec_raises h (.initTwice seed heng),
    fun _ seed ha hf => exec_quiescent (.init seed) ha hf⟩

/-- Settles O40: RUN starts the loop at STOPPED, and in the other phases is one of its two misuses. -/
theorem runStartsTheLoop : Obligations.RunStartsTheLoop :=
  ⟨rfl, fun _ h heng => exec_run_stopped h heng, fun _ h heng => exec_raises h (.runBeforeInit heng),
    fun _ h heng => exec_raises h (.runWhileRunning heng), fun _ ha hf => exec_quiescent .run ha hf⟩

end Sys2Proof.Machine
end

section
/-! PROOFS. The faults (spec/60_exceptions.md): what raises each code and what it leaves (R170, R171, R173 to R177), and
that no event has a step after one (R172). -/

namespace Sys2Proof.Machine

variable {s t : State} {i : Instr} {w : EventWord}

/-! ### Quiescence -/

/-- R185: the checks of `enter` come before the word is looked at. -/
theorem present_eq_enter (w : EventWord) (s : State) : ∃ body, present w s = enter s body := by
  cases hdec : decode w with
  | event i =>
    rw [present_event hdec]
    exact exec_eq_enter i s
  | reserved why => exact ⟨_, present_reserved hdec⟩

theorem present_quiescent (w : EventWord) (ha : admissible s = true) (hf : s.fault ≠ 0x00#8) :
    present w s = .fault .quiescent := by
  obtain ⟨body, hb⟩ := present_eq_enter w s
  rw [hb, enter_quiescent ha hf]

theorem step_quiescent (ha : admissible s = true) (hf : s.fault ≠ 0x00#8) (hwaits : s.events ≠ []) :
    step s = .fault .quiescent := by
  obtain ⟨w, rest, hevents⟩ := List.exists_cons_of_ne_nil hwaits
  rw [step_cons hevents]
  exact present_quiescent w ((admissible_withEvents rest s).trans ha) hf

/-- Settles O14: `enter` stops every event and every word once FAULT is not 0; so a word that steps finds FAULT = 0,
which has no bit to lose. -/
theorem quiescentOnceFaulted : Obligations.QuiescentOnceFaulted := by
  refine ⟨fun s ha hf => ⟨fun i => exec_quiescent i ha hf, fun w => present_quiescent w ha hf,
    step_quiescent ha hf⟩, fun w s t h => ?_⟩
  obtain ⟨-, hfault⟩ := present_next_live h
  rw [hfault, BitVec.zero_and]

/-! ### What raises a fault, and what it leaves -/

/-- The presented word raises this code in the state `s`: its event is a misuse, or it is reserved (R170, R177). -/
inductive PresentRaises (s : State) (w : EventWord) : FaultCode → Prop where
  | misuse {code : FaultCode} (i : Instr) (hdec : decode w = .event i) (hcode : Raises s i code) :
      PresentRaises s w code
  | reserved (why : Reserved) (hdec : decode w = .reserved why) : PresentRaises s w .reservedEvent

/-- R171: no update writes FAULT but the one of a misuse. -/
theorem EventEffect.fault_cases (h : EventEffect s i t) :
    t.fault = s.fault ∨ ∃ code, Raises s i code ∧ t = withFault code s := by
  cases h with
  | tick => exact .inl (ticked_fault s)
  | consume p => exact .inl (consumed_fault p s)
  | ackOk => exact .inl (writeSucceeded_fault s)
  | ackFailed => exact .inl (writeFailed_fault s)
  | init seed => exact .inl (initialised_fault seed s)
  | run => exact .inl (running_fault s)
  | raised code hcode => exact .inr ⟨code, hcode, rfl⟩

/-- R170, R171: a word that leaves a fault raised one code, and the state it leaves is the one with that code's bit. -/
theorem present_faulting (h : present w s = .next t) (hfault : t.fault ≠ 0x00#8) :
    ∃ code, PresentRaises s w code ∧ t = { s with fault := setFaultBit 0x00#8 code } := by
  have hlive : live s := present_next_live h
  cases present_next_effect h with
  | event i hdec heff =>
    rcases heff.fault_cases with hsame | ⟨code, hcode, rfl⟩
    · exact absurd (hsame.trans hlive.2) hfault
    · exact ⟨code, .misuse i hdec hcode, withFault_live code hlive⟩
  | reserved why hdec => exact ⟨.reservedEvent, .reserved why hdec, withFault_live .reservedEvent hlive⟩

/-- R32: the five bits that FAULT can take from 0. -/
theorem setFaultBit_zero_cases (code : FaultCode) :
    setFaultBit 0x00#8 code = 0x01#8 ∨ setFaultBit 0x00#8 code = 0x02#8 ∨ setFaultBit 0x00#8 code = 0x04#8 ∨
    setFaultBit 0x00#8 code = 0x08#8 ∨ setFaultBit 0x00#8 code = 0x10#8 := by
  cases code <;> decide

/-- Settles O15: the state a faulting word leaves is the one before with the bit of its code in FAULT. -/
theorem faultingEventWritesOnlyItsBit : Obligations.FaultingEventWritesOnlyItsBit := by
  intro w s t _ h hfault
  obtain ⟨code, -, rfl⟩ := present_faulting h hfault
  exact ⟨rfl, setFaultBit_zero_cases code⟩

/-- Settles O16: each misuse and each reserved word records its code's bit, and a word that faults is one of them. -/
theorem faultsByCodeAndCause : Obligations.FaultsByCodeAndCause := by
  refine ⟨fun s h heng => exec_raises h (.runBeforeInit heng),
    fun s seed h heng => exec_raises h (.initTwice seed heng),
    fun s h heng => exec_raises h (.runWhileRunning heng),
    fun s ok h heng => exec_raises h (.spuriousAck ok heng),
    fun w why s h hdec => present_reserved_live hdec h, fun w s t _ h hfault => ?_⟩
  obtain ⟨code, hraises, -⟩ := present_faulting h hfault
  cases hraises with
  | reserved why hdec => exact .inr (.inr (.inr ⟨why, hdec⟩))
  | misuse i hdec hcode =>
    cases hcode with
    | runBeforeInit heng => exact .inl ⟨hdec, by simp [heng]⟩
    | runWhileRunning heng => exact .inl ⟨hdec, by rcases heng with heng | heng <;> simp [heng]⟩
    | initTwice seed heng => exact .inr (.inl ⟨⟨seed, hdec⟩, heng⟩)
    | spuriousAck ok heng => exact .inr (.inr (.inl ⟨⟨ok, hdec⟩, heng⟩))

end Sys2Proof.Machine
end

section
/-! PROOFS. TICK beside the other events: it commutes with the sink's answer and with RUN, and it wakes the waiting engine
(spec/60_exceptions.md R184, R197; spec/92_eei_decisions.md D17). -/

namespace Sys2Proof.Machine

variable {s t : State} {i : Instr}

/-- An event that leaves no fault commutes with TICK where it does the same to the ticked state. -/
theorem runEvents_tick_comm (h : exec i s = .next t) (hfault : t.fault = 0x00#8)
    (hticked : exec i (ticked s) = .next (ticked t)) :
    runEvents [.tick, i] s = runEvents [i, .tick] s ∧ (runEvents [.tick, i] s).isSome = true := by
  have htickFirst : runEvents [.tick, i] s = some (ticked t) := by
    rw [runEvents_cons _ (exec_tick_live (exec_next_live h)), runEvents_cons _ hticked, runEvents]
  have htickLast : runEvents [i, .tick] s = some (ticked t) := by
    rw [runEvents_cons _ h, runEvents_cons _ (exec_tick_live (live_of_exec_next h hfault)), runEvents]
  rw [htickFirst, htickLast]
  exact ⟨rfl, rfl⟩

/-- Settles O46: TICK keeps ENG, and writes DUTY and READY, which the answer and RUN neither read nor write. -/
theorem tickCommutesWithAckAndRun : Obligations.TickCommutesWithAckAndRun := by
  refine ⟨fun s ok h heng => ?_, fun s h heng => ?_⟩
  · have heng' : (ticked s).eng = .sink := (ticked_eng s).trans heng
    cases ok with
    | true =>
      exact runEvents_tick_comm (exec_sinkAck_ok h heng) ((writeSucceeded_fault s).trans h.2)
        (exec_sinkAck_ok (live_ticked h) heng')
    | false =>
      exact runEvents_tick_comm (exec_sinkAck_failed h heng) ((writeFailed_fault s).trans h.2)
        (exec_sinkAck_failed (live_ticked h) heng')
  · have heng' : (ticked s).eng = .stopped := (ticked_eng s).trans heng
    exact runEvents_tick_comm (exec_run_stopped h heng) ((running_fault s).trans h.2)
      (exec_run_stopped (live_ticked h) heng')

/-- Settles O47: TICK sets READY and keeps ENG = WAIT, which is where CONSUME is enabled, and CONSUME keeps DUTY. -/
theorem tickWakesTheWaitingEngine : Obligations.TickWakesTheWaitingEngine := by
  intro s h heng
  have hcan : canConsume (ticked s) := ⟨live_ticked h, (ticked_eng s).trans heng, ticked_ready s⟩
  obtain ⟨p, -, hexec⟩ := exec_consume_enabled hcan
  exact ⟨ticked s, consumed p (ticked s), exec_tick_live h, hexec, consumed_eng p _, consumed_duty p _⟩

end Sys2Proof.Machine
end

section
/-! PROOFS. Where L - 1 < P at most one channel animates at a time (spec/70_reset_and_hazards.md R210). -/

namespace Sys2Proof.Machine

variable {s t : State} {p : PrngState} {i j : Fin 8}

/-- R120: a channel that an advance leaves active has moved on by one index without a wrap. -/
theorem advance_widx_of_active {len k : Nat} (hk : k < len)
    (h : (Channel.advance len ⟨true, k⟩).active = true) : (Channel.advance len ⟨true, k⟩).widx = k + 1 := by
  have hne : k + 1 ≠ len := fun hlast => by
    rw [advance_last hlast] at h
    exact Bool.false_ne_true h
  rw [advance_below (by omega)]

/-- R210: an animation has ended when the next draw comes, L - 1 waveform-update events after its own. -/
theorem oneChannelAnimates.inactive_of_atDraw (h : oneChannelAnimates s) (hinv : invariantProp s)
    (hlen : s.cfg.waveformLength - 1 < s.cfg.prngUpdateCount) (hdraw : atDraw s) (i : Fin 8) :
    (s.chans[i]).active = false := by
  obtain ⟨-, hwrap⟩ := hdraw
  have hlast : s.cfg.prngUpdateCount ≤ s.pac + 1 := Nat.le_of_dvd s.pac.succ_pos (Nat.dvd_of_mod_eq_zero hwrap)
  rw [Bool.eq_false_iff]
  intro hactive
  have hwidx : (s.chans[i]).widx = s.pac + 1 := h.1 i hactive
  have hlt : (s.chans[i]).widx < s.cfg.waveformLength := invariantProp_widx_lt hinv i
  omega

/-- A channel that CONSUME leaves active was active, or its draw selects it. -/
theorem active_or_selects_of_active (h : ((channelsAfter s p).1[i]).active = true) :
    (s.chans[i]).active = true ∨ selects s p i := by
  cases hoff : (s.chans[i]).active with
  | true => exact .inl rfl
  | false => exact .inr (selects_of_newly_active hoff h)

/-- R210: the index of a channel about to be advanced is PAC as the same event leaves it, 0 for one just selected. -/
theorem oneChannelAnimates.widx_of_animates (h : oneChannelAnimates s) (hinv : invariantProp s)
    (hlen : s.cfg.waveformLength - 1 < s.cfg.prngUpdateCount) (hanim : animates s p i) :
    (s.chans[i]).widx = (cascade s.cfg s.duty s.wuc s.pac).pac := by
  obtain ⟨hupdate, hactive⟩ := hanim
  rw [cascade_pac_of_update hupdate]
  by_cases hdraw : atDraw s
  · have hoff : (s.chans[i]).active = false := h.inactive_of_atDraw hinv hlen hdraw i
    obtain ⟨-, -, -, hchans, -⟩ := hinv
    obtain ⟨-, hidle, -⟩ := hchans i
    rw [hdraw.2, hidle hoff]
  · obtain ⟨-, -, hpac, -⟩ := hinv
    have hwrap : (s.pac + 1) % s.cfg.prngUpdateCount ≠ 0 := fun hz => hdraw ⟨hupdate, hz⟩
    have hne : s.pac + 1 ≠ s.cfg.prngUpdateCount := fun heq => hwrap (by rw [heq, Nat.mod_self])
    rw [Nat.mod_eq_of_lt (by omega)]
    exact h.1 i (hactive.resolve_right fun hsel => hdraw hsel.1)

theorem oneChannelAnimates.widx_consumed (h : oneChannelAnimates s) (hinv : invariantProp s)
    (hlen : s.cfg.waveformLength - 1 < s.cfg.prngUpdateCount)
    (hon : ((channelsAfter s p).1[i]).active = true) :
    ((channelsAfter s p).1[i]).widx = (cascade s.cfg s.duty s.wuc s.pac).pac + 1 := by
  by_cases hanim : animates s p i
  · rw [channelsAfter_of_animates hinv hanim] at hon ⊢
    rw [advance_widx_of_active (invariantProp_widx_lt hinv i) hon, h.widx_of_animates hinv hlen hanim]
  · have hnoupdate : ¬ atUpdate s := fun hupdate => hanim ⟨hupdate, active_or_selects_of_active hon⟩
    rw [channelsAfter_of_not_animates hanim] at hon ⊢
    rw [cascade_pac_of_not_update hnoupdate, h.1 i hon]

/-- R119, R210: a draw finds no channel active and selects at most one, and no other event activates one. -/
theorem oneChannelAnimates.unique_consumed (h : oneChannelAnimates s) (hinv : invariantProp s)
    (hlen : s.cfg.waveformLength - 1 < s.cfg.prngUpdateCount)
    (hi : ((channelsAfter s p).1[i]).active = true) (hj : ((channelsAfter s p).1[j]).active = true) :
    i = j := by
  by_cases hdraw : atDraw s
  · have hoff : ∀ k : Fin 8, (s.chans[k]).active = false := h.inactive_of_atDraw hinv hlen hdraw
    obtain ⟨-, -, hicand⟩ := selects_of_newly_active (hoff i) hi
    obtain ⟨-, -, hjcand⟩ := selects_of_newly_active (hoff j) hj
    exact Fin.ext (hicand.trans hjcand.symm)
  · have hwas : ∀ {k : Fin 8}, ((channelsAfter s p).1[k]).active = true → (s.chans[k]).active = true :=
      fun hk => (active_or_selects_of_active hk).resolve_right fun hsel => hdraw hsel.1
    exact h.2 i j (hwas hi) (hwas hj)

/-- R210: INIT leaves the channels of reset, CONSUME keeps the property, and no other event writes PAC or a
channel. -/
theorem EventEffect.oneChannelAnimates_next {e : Instr} (heff : EventEffect s e t) (hinv : invariantProp s)
    (hlen : s.cfg.waveformLength - 1 < s.cfg.prngUpdateCount) (h : oneChannelAnimates s) :
    oneChannelAnimates t := by
  cases heff with
  | consume p =>
    exact ⟨fun i => h.widx_consumed hinv hlen, fun i j => h.unique_consumed hinv hlen⟩
  | init seed =>
    obtain ⟨-, hreset, -⟩ := resetStartsTheAnimationInvariants.1 s.cfg
    exact hreset
  | tick => exact h
  | ackOk => exact h
  | ackFailed => exact h
  | run => exact h
  | raised code => exact h

theorem PresentEffect.oneChannelAnimates_next {w : EventWord} (heff : PresentEffect s w t)
    (hinv : invariantProp s) (hlen : s.cfg.waveformLength - 1 < s.cfg.prngUpdateCount)
    (h : oneChannelAnimates s) : oneChannelAnimates t := by
  cases heff with
  | event e _ heff => exact heff.oneChannelAnimates_next hinv hlen h
  | reserved => exact h

/-- Settles O52: a word that steps finds a state within R36, where the last animation has ended before a draw. -/
theorem stepKeepsAtMostOneChannelAnimating : Obligations.StepKeepsAtMostOneChannelAnimating := by
  intro s t hlen h hstep
  obtain ⟨w, rest, -, hw⟩ := step_next_cases hstep
  obtain ⟨-, hinv, -⟩ := (live_iff _).1 (present_next_live hw)
  have hwait : oneChannelAnimates (withEvents rest s) := h
  exact (present_next_effect hw).oneChannelAnimates_next hinv hlen hwait

end Sys2Proof.Machine
end

section
/-! PROOFS. The values at reset and the boot order (spec/70_reset_and_hazards.md R200 to R202), and what ticks do that the
engine does not service (R204, R207; spec/93_implementation_defined.md U19). -/

namespace Sys2Proof.Machine

variable {s : State}

/-- Settles O8: each field of reset is its literal, and every channel is idle. -/
theorem resetLeavesTheTableValues : Obligations.ResetLeavesTheTableValues := by
  have hidle : ∀ i : Fin 8, State.reset.chans[i] = Channel.idle := resetWith_idle Config.hardware
  exact ⟨⟨rfl, rfl, rfl, rfl, fun i => by rw [hidle i]; exact ⟨rfl, rfl⟩, rfl, rfl, rfl, rfl, rfl⟩,
    rfl, rfl, rfl, rfl, rfl, rfl⟩

/-! ### Unserviced ticks -/

theorem live_ticked_iterate (k : Nat) (h : live s) : live (ticked^[k] s) :=
  Function.Iterate.rec live h (fun _ => live_ticked) k

/-- What one TICK leaves as it was, a row of them does. -/
theorem ticked_iterate_keeps {α : Type} {f : State → α} (hkeep : ∀ u, f (ticked u) = f u) (k : Nat) (s : State) :
    f (ticked^[k] s) = f s :=
  Function.Iterate.rec (fun u => f u = f s) rfl (fun u hu => (hkeep u).trans hu) k

/-- Settles O48: ticks keep ENG = SINK and OUT, and in SINK CONSUME is not enabled. -/
theorem unansweredWriteHoldsTheEngine : Obligations.UnansweredWriteHoldsTheEngine := by
  intro k s h heng
  have heng' : (ticked^[k] s).eng = .sink := (ticked_iterate_keeps ticked_eng k s).trans heng
  exact ⟨ticked^[k] s, runEvents_copies_tick k h, heng', ticked_iterate_keeps ticked_out k s,
    exec_consume_waits (live_ticked_iterate k h) (.inl (by simp [heng']))⟩

/-- Settles O49: the CONSUME finds DUTY = 1, so it is no period boundary. -/
theorem droppedBoundaryLosesItsCascade : Obligations.DroppedBoundaryLosesItsCascade := by
  intro s h heng hR hduty
  have htick : live (ticked s) := live_ticked h
  have hcan : canConsume (ticked (ticked s)) := ⟨live_ticked htick, heng, ticked_ready _⟩
  have hfirst : (ticked s).duty = 0 := by
    rw [ticked_duty, hduty, wrapInc_pred (by omega)]
  have hsecond : (ticked (ticked s)).duty = 1 := by
    rw [ticked_duty, hfirst, ticked_cfg]
    exact Nat.mod_eq_of_lt hR
  have hoff : ¬ atBoundary (ticked (ticked s)) := by
    rw [atBoundary, hsecond]
    exact Nat.one_ne_zero
  obtain ⟨p, hp, hconsume⟩ := exec_consume_enabled hcan
  refine ⟨consumed p (ticked (ticked s)), ?_, (consumed_duty p _).trans hsecond, consumed_off_boundary hp hoff⟩
  rw [runEvents_cons _ (exec_tick_live h), runEvents_cons _ (exec_tick_live htick), runEvents_cons _ hconsume,
    runEvents]

/-! ### The boot order -/

theorem live_resetWith {c : Config} (h : admittedConfig c = true) : live (State.resetWith c) :=
  (live_iff _).2 ⟨h, invariantProp_resetWith h, rfl⟩

/-- R201: from UNINIT, INIT and RUN start the loop. -/
theorem runEvents_init_run (seed : Seed) (h : live s) (heng : s.eng = .uninit) :
    runEvents [.init seed, .run] s = some (running (initialised seed s)) := by
  have hinit := exec_init_uninit seed h heng
  have hlive : live (initialised seed s) := live_of_exec_next hinit ((initialised_fault seed s).trans h.2)
  rw [runEvents_cons _ hinit, runEvents_cons _ (exec_run_stopped hlive (initialised_eng seed s)), runEvents]

/-- Settles O41: ticks keep ENG = UNINIT, and INIT clears what they did. -/
theorem bootOrderStartsTheLoop : Obligations.BootOrderStartsTheLoop := by
  intro c k seed hcfg
  have hreset : live (State.resetWith c) := live_resetWith hcfg
  have heng : (ticked^[k] (State.resetWith c)).eng = .uninit := ticked_iterate_keeps ticked_eng k _
  rw [runEvents_append _ _ (runEvents_copies_tick k hreset),
    runEvents_init_run seed (live_ticked_iterate k hreset) heng,
    ticked_iterate_keeps (initialised_ticked seed)]
  rfl

end Sys2Proof.Machine
end

section
/-! PROOFS. What n serviced ticks leave: the counters (spec/70_reset_and_hazards.md R209), and a channel forced active
(spec/95_test_vectors.md L1.6, spec/90_conflicts.md C1). -/

namespace Sys2Proof.Machine

variable {c : Config} {n : Nat} {s t : State} {p : PrngState} {i : Fin 8}

/-! ### Counting -/

/-- `n / m` modulo `k` is the counter that advances at the multiples of `m`. -/
theorem succ_div_mod_of_dvd {n m : Nat} (k : Nat) (h : m ∣ n + 1) : (n / m % k + 1) % k = (n + 1) / m % k := by
  rw [Nat.mod_add_mod, Nat.succ_div_of_dvd h]

theorem succ_div_mod_of_not_dvd {n m : Nat} (k : Nat) (h : ¬ m ∣ n + 1) : n / m % k = (n + 1) / m % k := by
  rw [Nat.succ_div_of_not_dvd h]

/-- Ticks between two waveform-update events (R209). -/
def updatePeriod (c : Config) : Nat := c.pwmResolution * c.waveformUpdateCount

/-- A live state in which the engine waits, n serviced ticks after DUTY = 0 and WUC = 0 (R209). -/
structure CountsTicks (c : Config) (n : Nat) (t : State) : Prop where
  live : live t
  eng : t.eng = .wait
  ready : t.ready = false
  cfg : t.cfg = c
  duty : t.duty = n % c.pwmResolution
  wuc : t.wuc = n / c.pwmResolution % c.waveformUpdateCount

/-- The next serviced tick is a period boundary (R112). -/
theorem CountsTicks.atBoundary_iff (h : CountsTicks c n t) :
    atBoundary (ticked t) ↔ c.pwmResolution ∣ n + 1 := by
  rw [atBoundary, ticked_duty, h.cfg, h.duty, wrapInc, Nat.mod_add_mod, Nat.dvd_iff_mod_eq_zero]

/-- The next serviced tick is a waveform-update event (R114). -/
theorem CountsTicks.atUpdate_iff (h : CountsTicks c n t) : atUpdate (ticked t) ↔ updatePeriod c ∣ n + 1 := by
  rw [atUpdate, h.atBoundary_iff, ticked_wuc, ticked_cfg, h.cfg, h.wuc, updatePeriod]
  constructor
  · rintro ⟨hdvd, hwrap⟩
    rw [succ_div_mod_of_dvd _ hdvd] at hwrap
    exact (Nat.dvd_div_iff_mul_dvd hdvd).1 (Nat.dvd_of_mod_eq_zero hwrap)
  · intro hdvd
    have hR : c.pwmResolution ∣ n + 1 := dvd_of_mul_right_dvd hdvd
    rw [succ_div_mod_of_dvd _ hR]
    exact ⟨hR, Nat.mod_eq_zero_of_dvd ((Nat.dvd_div_iff_mul_dvd hR).2 hdvd)⟩

theorem CountsTicks.serviced_wuc (h : CountsTicks c n t) (p : PrngState) :
    (serviced p t).wuc = (n + 1) / c.pwmResolution % c.waveformUpdateCount := by
  by_cases hb : atBoundary (ticked t)
  · rw [← succ_div_mod_of_dvd _ (h.atBoundary_iff.1 hb), ← h.wuc, ← h.cfg]
    exact cascade_wuc_of_boundary hb
  · rw [← succ_div_mod_of_not_dvd _ (mt h.atBoundary_iff.2 hb), ← h.wuc]
    exact congrArg Cascade.wuc (cascade_off_boundary hb)

/-- R197: the next serviced tick has its three steps. -/
theorem CountsTicks.next (h : CountsTicks c n t) :
    ∃ p, runEvents stepEvents t = some (serviced p t) ∧ CountsTicks c (n + 1) (serviced p t) := by
  obtain ⟨p, -, hlive, hrun⟩ := runEvents_stepEvents h.live h.eng
  refine ⟨p, hrun, hlive, serviced_eng p t, rfl, h.cfg, ?_, h.serviced_wuc p⟩
  rw [serviced_duty, h.duty, h.cfg, wrapInc, Nat.mod_add_mod]

/-! ### Repeated events -/

theorem copies_succ_last (n : Nat) (is : List Instr) : copies (n + 1) is = copies n is ++ is := by
  rw [copies, List.replicate_succ', List.flatten_concat, copies]

/-- What each round keeps, with the number of rounds so far, holds after n rounds. -/
theorem runEvents_copies_induction {I : Nat → State → Prop} {is : List Instr} (h0 : I 0 s)
    (hround : ∀ n t, I n t → ∃ u, runEvents is t = some u ∧ I (n + 1) u) (n : Nat) :
    ∃ t, runEvents (copies n is) s = some t ∧ I n t := by
  induction n with
  | zero => exact ⟨s, rfl, h0⟩
  | succ n ih =>
    obtain ⟨t, hrun, ht⟩ := ih
    obtain ⟨u, hlast, hu⟩ := hround n t ht
    exact ⟨u, by rw [copies_succ_last, runEvents_append _ _ hrun, hlast], hu⟩

/-- The induction over serviced ticks from DUTY = 0 and WUC = 0: beside the counts, what each serviced tick keeps. -/
theorem runEvents_copies_stepEvents {I : Nat → State → Prop} (hs : CountsTicks c 0 s) (h0 : I 0 s)
    (hround : ∀ n t p, CountsTicks c n t → I n t → I (n + 1) (serviced p t)) (n : Nat) :
    ∃ t, runEvents (copies n stepEvents) s = some t ∧ CountsTicks c n t ∧ I n t :=
  runEvents_copies_induction (I := fun n t => CountsTicks c n t ∧ I n t) ⟨hs, h0⟩
    (fun n t ⟨hcount, ht⟩ => by
      obtain ⟨p, hrun, hnext⟩ := hcount.next
      exact ⟨serviced p t, hrun, hnext, hround n t p hcount ht⟩) n

theorem countsTicks_zero (h : live s) (heng : s.eng = .wait) (hready : s.ready = false) (hduty : s.duty = 0)
    (hwuc : s.wuc = 0) : CountsTicks s.cfg 0 s :=
  ⟨h, heng, hready, rfl, by rw [hduty, Nat.zero_mod], by rw [hwuc, Nat.zero_div, Nat.zero_mod]⟩

/-! ### PAC -/

theorem CountsTicks.serviced_pac (h : CountsTicks c n t) (p : PrngState)
    (hpac : t.pac = n / updatePeriod c % c.prngUpdateCount) :
    (serviced p t).pac = (n + 1) / updatePeriod c % c.prngUpdateCount := by
  by_cases hu : atUpdate (ticked t)
  · rw [← succ_div_mod_of_dvd _ (h.atUpdate_iff.1 hu), ← hpac, ← h.cfg]
    exact cascade_pac_of_update hu
  · rw [← succ_div_mod_of_not_dvd _ (mt h.atUpdate_iff.2 hu), ← hpac]
    exact cascade_pac_of_not_update hu

/-- Settles O55: DUTY counts ticks, WUC the multiples of R among them and PAC the multiples of R U. -/
theorem servicedTicksCountPeriods : Obligations.ServicedTicksCountPeriods := by
  intro n s h heng hready hduty hwuc hpac
  have hpac0 : s.pac = 0 / updatePeriod s.cfg % s.cfg.prngUpdateCount := by
    rw [hpac, Nat.zero_div, Nat.zero_mod]
  obtain ⟨t, hrun, hcount, htpac⟩ :=
    runEvents_copies_stepEvents (I := fun n t => t.pac = n / updatePeriod s.cfg % s.cfg.prngUpdateCount)
      (countsTicks_zero h heng hready hduty hwuc) hpac0 (fun _ _ p hcount => hcount.serviced_pac p) n
  exact ⟨t, hrun, hcount.live, hcount.eng, hcount.ready, hcount.duty, hcount.wuc, htpac⟩

/-! ### A channel forced active -/

/-- Up to the L-th waveform-update event, channel i has had one waveform advance for each of them (R120). -/
def advancedByUpdates (c : Config) (i : Fin 8) (n : Nat) (t : State) : Prop :=
  n ≤ c.waveformLength * updatePeriod c →
    t.chans[i] = (Channel.advance c.waveformLength)^[n / updatePeriod c] ⟨true, 0⟩

theorem CountsTicks.serviced_advanced (h : CountsTicks c n t) (p : PrngState) (hi : advancedByUpdates c i n t) :
    advancedByUpdates c i (n + 1) (serviced p t) := by
  intro hle
  have hbelow : n / updatePeriod c < c.waveformLength := Nat.div_lt_of_lt_mul (by rwa [Nat.mul_comm])
  have hbefore : (ticked t).chans[i] = (Channel.advance c.waveformLength)^[n / updatePeriod c] ⟨true, 0⟩ :=
    hi (Nat.le_of_succ_le hle)
  have hactive : (ticked t).chans[i] = ⟨true, ((ticked t).chans[i]).widx⟩ := by
    rw [hbefore, advance_iterate_below hbelow]
  by_cases hu : atUpdate (ticked t)
  · obtain ⟨-, hinv, -⟩ := (live_iff _).1 (live_ticked h.live)
    have hanim : animates (ticked t) p i := ⟨hu, .inl (by rw [hactive])⟩
    refine (channelsAfter_of_animates hinv hanim).trans ?_
    rw [← hactive, hbefore, ticked_cfg, h.cfg, Nat.succ_div_of_dvd (h.atUpdate_iff.1 hu),
      Function.iterate_succ_apply']
  · refine (channelsAfter_of_not_animates fun hanim => hu hanim.1).trans ?_
    rw [hbefore, Nat.succ_div_of_not_dvd (mt h.atUpdate_iff.2 hu)]

/-- Settles O56: the channel has its n / (R U) advances, and L of them are its full cycle. -/
theorem forcedChannelCompletesAfterTheProduct : Obligations.ForcedChannelCompletesAfterTheProduct := by
  intro s i h heng hready hduty hwuc _ hchan
  obtain ⟨hcfg, -, -⟩ := (live_iff s).1 h
  have hperiod : 0 < updatePeriod s.cfg :=
    Nat.mul_pos (admittedConfig_pwmResolution_pos hcfg) (admittedConfig_waveformUpdateCount_pos hcfg)
  have h0 : advancedByUpdates s.cfg i 0 s := fun _ => by rw [Nat.zero_div, hchan]; rfl
  have hrun := runEvents_copies_stepEvents (countsTicks_zero h heng hready hduty hwuc) h0
    fun _ _ p hcount => hcount.serviced_advanced p
  refine ⟨fun n hn => ?_, ?_⟩
  · obtain ⟨t, ht, -, hadv⟩ := hrun n
    have hbelow : n / updatePeriod s.cfg < s.cfg.waveformLength :=
      Nat.div_lt_of_lt_mul (by rwa [Nat.mul_comm])
    exact ⟨t, ht, (hadv hn.le).trans (advance_iterate_below hbelow)⟩
  · obtain ⟨t, ht, -, hadv⟩ := hrun (s.cfg.waveformLength * updatePeriod s.cfg)
    obtain ⟨-, hcycle⟩ := fullCycleTakesLengthAdvances _ (admittedConfig_waveformLength_pos hcfg)
    have hdone := hadv le_rfl
    rw [Nat.mul_div_cancel _ hperiod, hcycle] at hdone
    exact ⟨t, ht, hdone⟩

end Sys2Proof.Machine
end

section
/-! PROOFS. The words of spec/95_test_vectors.md L2.1, and the step as the presentation of the oldest waiting word
(log entry 2). -/

namespace Sys2Proof.Machine

/-- The encoder writes each of the eight event words of L2.1. -/
theorem encode_specWords :
    encode (.init 0#32) = 0x0000000001#40 ∧ encode (.init 0x12345678#32) = 0x1234567801#40 ∧
    encode (.init 0xFFFFFFFF#32) = 0xFFFFFFFF01#40 ∧ encode .run = 0x0000000002#40 ∧
    encode .tick = 0x0000000003#40 ∧ encode .consume = 0x0000000004#40 ∧
    encode (.sinkAck true) = 0x0000000105#40 ∧ encode (.sinkAck false) = 0x0000000005#40 := by decide

/-- Settles O1: the event words are the encoder's, which the decoder reads back; the four reserved words are evaluated. -/
theorem specWordsDecode : Obligations.SpecWordsDecode := by
  unfold Obligations.SpecWordsDecode
  obtain ⟨hinit0, hinit, hinitMax, hrun, htick, hconsume, hackOk, hackFailed⟩ := encode_specWords
  simp only [decode_eq_event_iff]
  exact ⟨hinit0, hinit, hinitMax, hrun, htick, hconsume, hackOk, hackFailed,
    by decide, by decide, by decide, by decide⟩

/-- Settles O6: with a word waiting the step presents it to the state without it, where its event runs, or it is reserved
and records its fault; a waiting word bears on no check, so that state is live too. -/
theorem stepTakesTheOldestWord : Obligations.StepTakesTheOldestWord := by
  refine ⟨fun s w rest i hevents hdec => ?event, fun s w rest why hevents hdec hlive => ?reserved,
    fun s hevents => step_nil hevents⟩
  case event => exact (step_cons hevents).trans (present_event hdec)
  case reserved =>
    exact (step_cons hevents).trans (present_reserved_live hdec ((live_withEvents rest s).2 hlive))

end Sys2Proof.Machine
end
